-- ==== Sys2Proof/Word.lean ====
section
/-! DEFINITION. The word types of the block: every value of the spec is unsigned (spec/00_scope.md R8). -/

namespace Sys2Proof

/-- A byte of the serial stream or of a command operand (R9, R61). -/
abbrev Byte := BitVec 8

/-- A tag identifier, 40 bits, unsigned (R6 `TAG_WIDTH`, R64). -/
abbrev Tag := BitVec 40

/-- Time and durations: natural numbers of ticks, without an upper bound and without wrap (R8, R32). -/
abbrev Ticks := Nat

/-- A command word (R95). -/
abbrev CommandWord := BitVec 128

/-- A response word or an event record (R94, R100). -/
abbrev RecordWord := BitVec 64

end Sys2Proof
end

