-- ==== Sys2Proof/Config.lean ====
section
/-! DEFINITION. The configuration of the block: the reader kinds, the profile that RESET latches, the agents, the
parameter no rule reads, the free value, and the profile the model's own reset state uses. -/

namespace Sys2Proof

/-- The closed enumeration of reader profiles, the configuration input `KIND` (R2, R6, R311). -/
inductive ReaderKind where
  | id
  | rdm
deriving DecidableEq, Repr

/-- The configuration inputs of RESET, and the register `cfg` that holds them afterwards (R22, R310). `cfg.L` and `cfg.trail`
are derived from `kind` and have no field (log 9). -/
structure Profile where
  /-- `KIND` -/
  kind : ReaderKind
  /-- `CHECKSUM_ENABLED` -/
  checksumEnabled : Bool
  /-- `PRIMARY_TIMEOUT`: `none` waits for the first byte without a bound. -/
  primaryTimeout : Option Ticks
  /-- `INTRA_TIMEOUT` -/
  intraTimeout : Ticks
  /-- `GRACE` -/
  grace : Ticks
deriving DecidableEq, Repr

/-- Who takes a step (R20); `resetInput` is the reset input of R99's table. The FrameDecoder, DEC, steps on what HOST and BS
issue, so no transaction is issued by it. -/
inductive Agent where
  | host
  | bs
  | edge
  | tmr
  | clk
  | resetInput
deriving DecidableEq, Repr

/-- The real duration of one tick, the OPEN parameter `TICK` of R6: a free value, used by no rule (log 16). -/
opaque Config.tickDuration : Nat

/-- The value of `xor5` of a payload that is not all hexadecimal, which R160 leaves undefined: a free value of the payload.
Only the default checksum of `.frame` (R102) asks for it (DESIGN CHOICE, log 21). -/
opaque Config.undefinedXor5 : List Byte → Byte

/-- DESIGN CHOICE (log 7), unsafe: the configuration inputs behind `State.reset`. The spec leaves them to the model's
argument (R6); these are the ones of its power-on vector RV1 (spec/95_test_vectors.md). -/
def Config.resetProfile : Profile where
  kind := .id
  checksumEnabled := true
  primaryTimeout := some 100
  intraTimeout := 30
  grace := 50

/-- DESIGN CHOICE (log 8), unsafe: the time at power-on behind `State.reset`; the spec leaves it arbitrary (R32, R35). -/
def Config.resetNow : Ticks := 0

/-- DESIGN CHOICE (log 8), unsafe: the bytes buffered at power-on behind `State.reset`; the spec leaves them arbitrary
(R33, R35). -/
def Config.resetFifo : List Byte := []

end Sys2Proof
end

