-- ==== Sys2Proof/Syntax.lean ====
section
/-! DEFINITION. The instructions: one constructor per row of spec/opcode_table.json. -/

namespace Sys2Proof

/-- A step of the block with its operands: the five command words (R97) and the five internal events (R99). -/
inductive Instr where
  /-- DECODE: start one decode call (R120). -/
  | decode
  /-- VERIFY: check the payload characters `p` against the checksum characters `c0`, `c1` (R161). -/
  | verify (p : List Byte) (c0 c1 : Byte)
  /-- RAW_ENTER: a raw edge carrying the tag `t` (R181). -/
  | rawEnter (t : Tag)
  /-- RAW_LEAVE: a raw leave edge (R183). -/
  | rawLeave
  /-- TIME_ADVANCE: `delta` ticks pass (R260). -/
  | timeAdvance (delta : BitVec 64)
  /-- BYTE_ARRIVE: the byte `b` arrives on the serial link (R251). -/
  | byteArrive (b : Byte)
  /-- START_ANSWER: the ByteSource answers the start request with a byte, or with `timed_out` (`none`) (R122). -/
  | startAnswer (r : Option Byte)
  /-- BODY_ANSWER: the ByteSource answers the body request with the bytes `body` (R124). -/
  | bodyAnswer (body : List Byte)
  /-- GRACE_EXPIRED: the grace timer armed for `(t, d)` fires (R192). -/
  | graceExpired (t : Tag) (d : Ticks)
  /-- RESET with the configuration inputs `p` (R310). -/
  | reset (p : Profile)
deriving DecidableEq, Repr

end Sys2Proof
end

