-- ==== Sys2Proof/WellFormed.lean ====
section
/-! DEFINITION. Which instructions the encodings can express. -/

namespace Sys2Proof

/-- `payloadChars`: a payload has 10 characters (R6 `PAYLOAD_CHARS`, R96). -/
def payloadChars : Nat := 10

/-- An instruction is well formed when the spec's operand layout can express it: VERIFY has exactly 10 payload characters
(R96). Every other operand is as wide as its type; the length of a BODY_ANSWER is bounded by `cfg.L - 1`, which is state,
so it is checked where the step is taken (R253). -/
def Instr.wellFormed : Instr → Bool
  | .verify p _ _ => p.length == payloadChars
  | .decode => true
  | .rawEnter _ => true
  | .rawLeave => true
  | .timeAdvance _ => true
  | .byteArrive _ => true
  | .startAnswer _ => true
  | .bodyAnswer _ => true
  | .graceExpired _ _ => true
  | .reset _ => true

end Sys2Proof
end

