-- ==== Sys2Proof/Decode.lean ====
section
/-! DEFINITION. The input transactions, the decoder of command words with its refusals by name, and the encoder
(spec/30_encoding.md R95 to R99). -/

namespace Sys2Proof

/-- The reasons of the refusal log (R285). The first two are raised while decoding a command word (R98), `decodeBusy` by
DECODE (R120), `verifyNonhex` by VERIFY (R161). `reentrant` is raised by no step of this model, which cannot express a
re-entering observer (R233, log 17). -/
inductive RefusalReason where
  | illegalOpcode
  | reservedBits
  | decodeBusy
  | verifyNonhex
  | reentrant
deriving DecidableEq, Repr

/-- The typed events that are not command words (R99). -/
inductive InternalEvent where
  | byteArrive (b : Byte)
  | startAnswer (r : Option Byte)
  | bodyAnswer (body : List Byte)
  | graceExpired (t : Tag) (d : Ticks)
  | reset (p : Profile)
deriving DecidableEq, Repr

/-- One input transaction: a 128-bit command word, not yet decoded, or a typed internal event (R95, R99). -/
inductive Input where
  | command (w : CommandWord)
  | event (e : InternalEvent)
deriving DecidableEq, Repr

/-! ## Fields of a command word (R95, R96) -/

/-- `op`, bits [127:120]. -/
def opField (w : CommandWord) : BitVec 8 := w.extractLsb' 120 8

/-- `rsv`, bits [119:96]. -/
def rsvField (w : CommandWord) : BitVec 24 := w.extractLsb' 96 24

/-- `opnd`, bits [95:0]. -/
def opndField (w : CommandWord) : BitVec 96 := w.extractLsb' 0 96

/-- Payload character `i` of VERIFY, `opnd[95-8i : 88-8i]`. -/
def payloadField (w : CommandWord) (i : Nat) : Byte := (opndField w).extractLsb' (88 - 8 * i) 8

/-- The 10 payload characters of VERIFY, first character first. -/
def payloadOf (w : CommandWord) : List Byte :=
  [payloadField w 0, payloadField w 1, payloadField w 2, payloadField w 3, payloadField w 4,
   payloadField w 5, payloadField w 6, payloadField w 7, payloadField w 8, payloadField w 9]

/-- `i` when the reserved bits are clear, otherwise the refusal `RESERVED_BITS` (R98). -/
def unlessReserved (clear : Bool) (i : Instr) : Except RefusalReason Instr :=
  if clear then .ok i else .error .reservedBits

/-- The instruction a command word stands for, or the reason it is refused: the opcode is checked first, then the
reserved bits (R96, R97, R98). -/
def decodeCommand (w : CommandWord) : Except RefusalReason Instr :=
  if opField w = 0x01#8 then
    unlessReserved (rsvField w == 0 && opndField w == 0) .decode
  else if opField w = 0x02#8 then
    unlessReserved (rsvField w == 0) (.verify (payloadOf w) ((opndField w).extractLsb' 8 8) ((opndField w).extractLsb' 0 8))
  else if opField w = 0x10#8 then
    unlessReserved (rsvField w == 0 && (opndField w).extractLsb' 40 56 == 0) (.rawEnter ((opndField w).extractLsb' 0 40))
  else if opField w = 0x11#8 then
    unlessReserved (rsvField w == 0 && opndField w == 0) .rawLeave
  else if opField w = 0x20#8 then
    unlessReserved (rsvField w == 0 && (opndField w).extractLsb' 64 32 == 0) (.timeAdvance ((opndField w).extractLsb' 0 64))
  else .error .illegalOpcode

/-- The instruction a typed internal event stands for (R99). -/
def InternalEvent.toInstr : InternalEvent → Instr
  | .byteArrive b => .byteArrive b
  | .startAnswer r => .startAnswer r
  | .bodyAnswer s => .bodyAnswer s
  | .graceExpired t d => .graceExpired t d
  | .reset p => .reset p

/-- The instruction an input transaction stands for, or the reason it is refused. -/
def decode : Input → Except RefusalReason Instr
  | .command w => decodeCommand w
  | .event e => .ok e.toInstr

/-! ## The encoder -/

/-- A command word from its opcode at [127:120] and its operand at [95:0], the reserved field zero (R95). -/
def commandWord (op : BitVec 8) (opnd : BitVec 96) : CommandWord := op.setWidth 128 <<< 120 ||| opnd.setWidth 128

/-- The operand of VERIFY: 10 payload characters, first character in the most significant byte, then the two checksum
characters (R96). -/
def verifyOperand (p : List Byte) (c0 c1 : Byte) : BitVec 96 :=
  (p ++ [c0, c1]).foldl (fun acc c => acc <<< 8 ||| c.setWidth 96) 0

/-- The input transaction that presents an instruction (R96, R97, R99). -/
def encode : Instr → Input
  | .decode => .command (commandWord 0x01#8 0)
  | .verify p c0 c1 => .command (commandWord 0x02#8 (verifyOperand p c0 c1))
  | .rawEnter t => .command (commandWord 0x10#8 (t.setWidth 96))
  | .rawLeave => .command (commandWord 0x11#8 0)
  | .timeAdvance delta => .command (commandWord 0x20#8 (delta.setWidth 96))
  | .byteArrive b => .event (.byteArrive b)
  | .startAnswer r => .event (.startAnswer r)
  | .bodyAnswer s => .event (.bodyAnswer s)
  | .graceExpired t d => .event (.graceExpired t d)
  | .reset p => .event (.reset p)

/-! ## Event codes and issuing agents -/

/-- The 8-bit code of an internal event (R99). -/
def InternalEvent.code : InternalEvent → BitVec 8
  | .byteArrive _ => 0x80#8
  | .startAnswer _ => 0x81#8
  | .bodyAnswer _ => 0x82#8
  | .graceExpired _ _ => 0x83#8
  | .reset _ => 0x84#8

/-- The event with the given code and every operand bit zero, `none` for a code that names no event (R99). DESIGN CHOICE
(log 11): a zero operand reads as the byte `0x00`, `timed_out`, no bytes, tag 0, deadline 0, kind ID (code 0, R92),
checksum disabled, no primary timeout and durations 0. -/
def InternalEvent.ofCode (c : BitVec 8) : Option InternalEvent :=
  if c = 0x80#8 then some (.byteArrive 0)
  else if c = 0x81#8 then some (.startAnswer none)
  else if c = 0x82#8 then some (.bodyAnswer [])
  else if c = 0x83#8 then some (.graceExpired 0 0)
  else if c = 0x84#8 then some (.reset ⟨.id, false, none, 0, 0⟩)
  else none

/-- The agent that issues an instruction (R97, R99). A command names no agent and nothing further restricts it (R293), so
no step reads this. -/
def Instr.agent : Instr → Agent
  | .decode => .host
  | .verify _ _ _ => .host
  | .rawEnter _ => .edge
  | .rawLeave => .edge
  | .timeAdvance _ => .clk
  | .byteArrive _ => .bs
  | .startAnswer _ => .bs
  | .bodyAnswer _ => .bs
  | .graceExpired _ _ => .tmr
  | .reset _ => .resetInput

/-- The input transaction of an opcode-table word: an 8-bit row is an event code with zero operands (log 11), anything else
a command word. -/
def inputOfTableWord (nbits w : Nat) : Input :=
  match (if nbits = 8 then InternalEvent.ofCode (BitVec.ofNat 8 w) else none) with
  | some e => .event e
  | none => .command (BitVec.ofNat 128 w)

/-- The instruction the decoder reads from an opcode-table word, `none` where it refuses it. -/
def decodeTableWord (nbits w : Nat) : Option Instr :=
  (decode (inputOfTableWord nbits w)).toOption

end Sys2Proof
end

