-- ==== Sys2Proof/Machine/State.lean ====
section
/-! DEFINITION. The machine's state as plain data, why a step can stop, and the state after reset
(spec/10_state.md R22 to R35). -/

namespace Sys2Proof.Machine

/-- `dec.phase` (R23): which ByteSource answer the decoder waits for. -/
inductive Phase where
  | idle
  | waitStart
  | waitBody
deriving DecidableEq, Repr

/-- The decode status, the block's only condition code (R26, R90). -/
inductive Status where
  | ok
  | noData
  | badStart
  | incomplete
  | malformed
  | checksum
deriving DecidableEq, Repr

/-- An entry of the response log (R24). -/
inductive Response where
  | decodeResult (status : Status) (tag : Tag)
  | verifyResult (ok : Bool)
deriving DecidableEq, Repr

/-- `pst` in its three well-formed shapes (R27). -/
inductive PresenceState where
  | absent
  | present (t : Tag)
  | debouncing (t : Tag) (d : Ticks)
deriving DecidableEq, Repr

/-- A live grace timer: the identity it was armed with (R28, R190). -/
structure Timer where
  tag : Tag
  deadline : Ticks
deriving DecidableEq, Repr

/-- A debounced event (R30). -/
inductive PresenceEvent where
  | enter (t : Tag)
  | leave (t : Tag)
deriving DecidableEq, Repr

/-- The whole state. Each field names its rule in spec/10_state.md. -/
structure State where
  /-- `cfg`: the ReaderProfile and the grace period (R22). -/
  cfg : Profile
  /-- `dec.phase` (R23). -/
  phase : Phase
  /-- `resp_log`, oldest response first (R24). -/
  respLog : List Response
  /-- `pst` (R27). -/
  pst : PresenceState
  /-- `tmr` (R28). -/
  tmr : Option Timer
  /-- `events`, oldest event first (R30). -/
  events : List PresenceEvent
  /-- `refusals`, oldest reason first (R31). -/
  refusals : List RefusalReason
  /-- `now` (R32). -/
  now : Ticks
  /-- `bs.fifo`, the next byte to read first (R33). -/
  fifo : List Byte
  /-- THE MODEL'S OWN: the input transactions still to be applied, the next one first. It is the schedule, which the spec
  leaves free (R20, R290; log 1). -/
  inputs : List Input
deriving DecidableEq, Repr

/-- Why the machine stops: the schedule asked for a step that is not enabled in the current state, which the spec calls an
error of the program text and not a step (R101, log 3). Each is safe: the model stops where the block would not move. -/
inductive Fault where
  /-- START_ANSWER with no start request pending (R122). Raised by `execStartAnswer`. Safe. -/
  | noStartRequest
  /-- START_ANSWER with a byte that is not at the head of the input buffer (R252). Raised by `execStartAnswer`. Safe. -/
  | startAnswerNotHead
  /-- START_ANSWER(`timed_out`) while a byte is buffered (R252). Raised by `execStartAnswer`. Safe. -/
  | timedOutWhileBuffered
  /-- START_ANSWER(`timed_out`) with no primary timeout configured (R252). Raised by `execStartAnswer`. Safe. -/
  | timedOutUnbounded
  /-- BODY_ANSWER with no body request pending (R124). Raised by `execBodyAnswer`. Safe. -/
  | noBodyRequest
  /-- BODY_ANSWER with other bytes than the full answer, or than the short one that drains the buffer (R253). Raised by
  `execBodyAnswer`. Safe. -/
  | bodyAnswerInadmissible
  /-- GRACE_EXPIRED of the live timer before its deadline (R189). Raised by `execGraceExpired`. Safe. -/
  | deadlineNotReached
  /-- GRACE_EXPIRED that matches `pst` while no such timer is live, which no reachable state allows (R29, log 4). Raised by
  `execGraceExpired`. Safe. -/
  | timerNotLive
deriving DecidableEq, Repr

/-- Why the model has no meaning for a step. The spec's own refusals (R284) are not among them: they are next states with a
reason appended to `refusals`. -/
inductive Refusal where
  /-- The instruction has no meaning yet. Raised by an arm of `exec` only; no arm does. Safe. -/
  | notModelled (mnemonic : String)
deriving DecidableEq, Repr

/-- The state after power-on with the configuration inputs `p`, the buffered bytes `fifo`, the time `now` and the schedule
`inputs`, all of which the spec leaves to the environment (R35, R310). -/
def State.powerOn (p : Profile) (fifo : List Byte) (now : Ticks) (inputs : List Input) : State where
  cfg := p
  phase := .idle
  respLog := []
  pst := .absent
  tmr := none
  events := []
  refusals := []
  now := now
  fifo := fifo
  inputs := inputs

/-- The machine right after reset: power-on with the model's named choice of what the spec leaves arbitrary (logs 1, 7, 8). -/
def State.reset : State := .powerOn Config.resetProfile Config.resetFifo Config.resetNow []

end Sys2Proof.Machine
end

