-- ==== Sys2Proof/Machine/Operands.lean ====
section
/-! DEFINITION. The operand forms: the serial frame (spec/30_encoding.md R81 to R84), the hexadecimal characters
(R85 to R89), the checksum (spec/41_checksum_validator.md R160), and the fields of `pst` (R27). -/

namespace Sys2Proof

/-! ## The serial frame -/

/-- The start marker `STX` (R84). -/
def stx : Byte := 0x02#8

/-- `cfg.L`: the frame length in bytes, including the start marker (R6, R81). -/
def Profile.frameLength (p : Profile) : Nat :=
  match p.kind with
  | .id => 16
  | .rdm => 14

/-- `L - 1`: how many bytes follow the start marker (R123). -/
def Profile.bodyLength (p : Profile) : Nat := p.frameLength - 1

/-- `cfg.trail`: how many trailer bytes follow the checksum (R6, R82, spec/90_conflicts.md C1, C2). -/
def Profile.trailerLength (p : Profile) : Nat := p.frameLength - 13

/-- The payload characters of a body, RawFrame indices [0:10) (R82). -/
def payloadSlice (body : List Byte) : List Byte := body.take 10

/-- The checksum characters of a body, RawFrame indices [10:12) (R82). -/
def checksumSlice (body : List Byte) : List Byte := (body.drop 10).take 2

/-! ## Hexadecimal characters -/

/-- `is_hex`: one of the 22 hexadecimal characters (R85, R86). -/
def isHex (b : Byte) : Bool :=
  (0x30#8 ≤ b && b ≤ 0x39#8) || (0x41#8 ≤ b && b ≤ 0x46#8) || (0x61#8 ≤ b && b ≤ 0x66#8)

/-- `hexval`, 4 bits (R86). The spec defines it for hexadecimal characters only and every caller checks first; on other
bytes its value means nothing (log 12). -/
def hexval (b : Byte) : BitVec 4 :=
  if b ≤ 0x39#8 then (b - 0x30#8).setWidth 4
  else if b ≤ 0x46#8 then (b - 0x41#8 + 10#8).setWidth 4
  else (b - 0x61#8 + 10#8).setWidth 4

/-- `hex2`: the byte of a 2-character group, high nibble first (R63, R87). -/
def hex2 (c1 c2 : Byte) : Byte := (hexval c1).setWidth 8 <<< 4 ||| (hexval c2).setWidth 8

/-- `hex10`: the number a sequence of characters denotes, most significant digit first (R62, R88). -/
def hex10 (s : List Byte) : Tag := s.foldl (fun acc c => acc <<< 4 ||| (hexval c).setWidth 40) 0

/-- `all_hex` (R89). -/
def allHex (s : List Byte) : Bool := s.all isHex

/-- `xor5`: the XOR of the 2-character groups, left to right from the accumulator `acc` (R160). -/
def xorGroups (acc : Byte) : List Byte → Byte
  | c1 :: c2 :: rest => xorGroups (acc ^^^ hex2 c1 c2) rest
  | _ => acc

/-- `xor5` (R160), defined for a hexadecimal payload; every caller of the model checks first (log 12, log 21). -/
def xor5 (p : List Byte) : Byte := xorGroups 0 p

/-- The upper-case hexadecimal character of a digit (R85). -/
def hexChar (n : BitVec 4) : Byte :=
  if n < 10#4 then 0x30#8 + n.setWidth 8 else 0x41#8 + (n.setWidth 8 - 10#8)

/-- `H(T)`: the 10 upper-case hexadecimal characters of a tag, most significant first (R130). -/
def tagChars (t : Tag) : List Byte :=
  (List.range 10).map fun i => hexChar (t.extractLsb' (36 - 4 * i) 4)

/-- The 2 upper-case hexadecimal characters of a byte, high nibble first (R130, R164). -/
def byteChars (b : Byte) : List Byte := [hexChar (b.extractLsb' 4 4), hexChar (b.extractLsb' 0 4)]

namespace Machine

/-! ## The fields of `pst` (R27) -/

/-- `pst.tag` -/
def PresenceState.tag? : PresenceState → Option Tag
  | .absent => none
  | .present t => some t
  | .debouncing t _ => some t

/-- `pst.deadline` -/
def PresenceState.deadline? : PresenceState → Option Ticks
  | .absent => none
  | .present _ => none
  | .debouncing _ d => some d

/-- The timer a debouncing state is waiting for, `none` in the other states (R29). -/
def PresenceState.timer? : PresenceState → Option Timer
  | .absent => none
  | .present _ => none
  | .debouncing t d => some ⟨t, d⟩

end Machine
end Sys2Proof
end

