-- ==== Sys2Proof/Machine/Flags.lean ====
section
/-! DEFINITION. The decode status, the block's only condition code (spec/10_state.md R26), the checks that give it
(spec/40_frame_decoder.md R124, R125), and the code values of statuses, kinds, states, phases, responses and events
(spec/30_encoding.md R90 to R94, R100). -/

namespace Sys2Proof

/-- Reader-kind code (R92). -/
def ReaderKind.code : ReaderKind → BitVec 1
  | .id => 0#1
  | .rdm => 1#1

namespace Machine

/-- Status code (R90). -/
def Status.code : Status → BitVec 8
  | .ok => 0#8
  | .noData => 1#8
  | .badStart => 2#8
  | .incomplete => 3#8
  | .malformed => 4#8
  | .checksum => 5#8

/-- The statuses that are errors, which are the ones that flush the input (R90, R126). -/
def Status.isError : Status → Bool
  | .ok => false
  | .noData => false
  | .badStart => true
  | .incomplete => true
  | .malformed => true
  | .checksum => true

/-- The tag field of a result: the decoded tag for `OK`, 0 for every other status (R91). -/
def Status.tagField (st : Status) (t : Tag) : Tag := if st = .ok then t else 0

/-- The checksum test of step 4: the checksum characters are hexadecimal and give the XOR of the payload (R124). -/
def checksumMatches (body : List Byte) : Bool :=
  allHex (checksumSlice body) &&
    xor5 (payloadSlice body) == hex2 ((checksumSlice body).getD 0 0) ((checksumSlice body).getD 1 0)

/-- The status of a body, checked in the source's step order: completeness, payload, checksum (R124, R125). -/
def frameStatus (cfg : Profile) (body : List Byte) : Status :=
  if body.length < cfg.bodyLength then .incomplete
  else if !allHex (payloadSlice body) then .malformed
  else if cfg.checksumEnabled && !checksumMatches body then .checksum
  else .ok

/-- Decoder-phase code (R93). -/
def Phase.code : Phase → BitVec 2
  | .idle => 0#2
  | .waitStart => 1#2
  | .waitBody => 2#2

/-- Presence-state code `pst.kind` (R93). -/
def PresenceState.kindCode : PresenceState → BitVec 2
  | .absent => 0#2
  | .present _ => 1#2
  | .debouncing _ _ => 2#2

/-- Response word (R100). -/
def Response.word : Response → RecordWord
  | .decodeResult st t => (0x01#64 <<< 56) ||| st.code.setWidth 64 <<< 48 ||| t.setWidth 64
  | .verifyResult ok => (0x02#64 <<< 56) ||| (BitVec.ofBool ok).setWidth 64

/-- Event record (R94). -/
def PresenceEvent.record : PresenceEvent → RecordWord
  | .enter t => (0x01#64 <<< 56) ||| t.setWidth 64
  | .leave t => (0x02#64 <<< 56) ||| t.setWidth 64

end Machine
end Sys2Proof
end

