-- ==== Sys2Proof/Machine/Ops.lean ====
section
/-! DEFINITION. The named operations over the state: the pseudocode primitives of spec/00_scope.md R10, the ByteSource's
side of an answer (spec/44_host_interfaces.md R250 to R254), the end of a decode call, and fetching the next step. The block
has no memory (R60) and no traps (R280): a refusal and the end of a decode call are its only abnormal outcomes. -/

namespace Sys2Proof.Machine

/-! ## Logs -/

/-- `respond(r)`: append to the response log (R24). -/
def State.respond (r : Response) (s : State) : State := { s with respLog := s.respLog ++ [r] }

/-- `emit E`: append to the event log (R230). -/
def State.emit (e : PresenceEvent) (s : State) : State := { s with events := s.events ++ [e] }

/-- `raise Refused(reason)`: append to the refusal log and change nothing else (R284). -/
def State.refuse (r : RefusalReason) (s : State) : State := { s with refusals := s.refusals ++ [r] }

/-! ## Registers -/

/-- `dec.phase <- p` -/
def State.setPhase (p : Phase) (s : State) : State := { s with phase := p }

/-- `pst <- p` -/
def State.setPst (p : PresenceState) (s : State) : State := { s with pst := p }

/-- `schedule(t, d)`: arm the timer (R186). -/
def State.schedule (t : Tag) (d : Ticks) (s : State) : State := { s with tmr := some ⟨t, d⟩ }

/-- `cancel()`: disarm the timer (R187). -/
def State.cancel (s : State) : State := { s with tmr := none }

/-- `now <- now + delta`, without wrap (R260). -/
def State.advance (delta : Ticks) (s : State) : State := { s with now := s.now + delta }

/-- Latch the configuration inputs (R310). -/
def State.latch (p : Profile) (s : State) : State := { s with cfg := p }

/-! ## The ByteSource -/

/-- `bs.fifo <- bs.fifo ++ [b]` (R251). -/
def State.arrive (b : Byte) (s : State) : State := { s with fifo := s.fifo ++ [b] }

/-- Remove the `n` bytes at the head of the buffer, which an answer has taken (R252, R253). -/
def State.consume (n : Nat) (s : State) : State := { s with fifo := s.fifo.drop n }

/-- `BS.flush()`: discard every buffered byte (R254). -/
def State.flush (s : State) : State := { s with fifo := [] }

/-- A request of the decoder to the ByteSource (R250). -/
inductive Request where
  /-- `BS.read_one(timeout)` -/
  | readOne (timeout : Option Ticks)
  /-- `BS.read_n(n, timeout)` -/
  | readN (n : Nat) (timeout : Ticks)
deriving DecidableEq, Repr

/-- The pending request, which the phase implies (R120, R121, R123, R250; log 10). -/
def State.pendingRequest (s : State) : Option Request :=
  match s.phase with
  | .idle => none
  | .waitStart => some (.readOne s.cfg.primaryTimeout)
  | .waitBody => some (.readN s.cfg.bodyLength s.cfg.intraTimeout)

/-- Why START_ANSWER(`r`) is not enabled, `none` when it is (R122, R252): a byte must be the head of the buffer, `timed_out`
needs an empty buffer and a primary timeout. -/
def State.startAnswerFault (r : Option Byte) (s : State) : Option Fault :=
  if s.phase = .waitStart then
    match r, s.fifo with
    | some b, head :: _ => if b = head then none else some .startAnswerNotHead
    | some _, [] => some .startAnswerNotHead
    | none, _ :: _ => some .timedOutWhileBuffered
    | none, [] => if s.cfg.primaryTimeout = none then some .timedOutUnbounded else none
  else some .noStartRequest

/-- The bytes a body answer takes at this moment: `L - 1` from the head, or all of them when fewer are buffered (R253). -/
def State.bodyAnswerBytes (s : State) : List Byte := s.fifo.take s.cfg.bodyLength

/-- Why BODY_ANSWER(`body`) is not enabled, `none` when it is (R124, R253). -/
def State.bodyAnswerFault (body : List Byte) (s : State) : Option Fault :=
  if s.phase = .waitBody then
    if body = s.bodyAnswerBytes then none else some .bodyAnswerInadmissible
  else some .noBodyRequest

/-! ## The end of a decode call -/

/-- End the decode call with status `st`: an error flushes the buffer first, the decoder is idle, and one `DecodeResult`
with the status's tag field is the response (R122, R124, R126, R127). -/
def State.endCall (st : Status) (t : Tag) (s : State) : State :=
  ((if st.isError then s.flush else s).setPhase .idle).respond (.decodeResult st (st.tagField t))

/-! ## The schedule -/

/-- The next input transaction and the state with it taken off the schedule, `none` when nothing is scheduled (R20; log 1). -/
def State.fetch (s : State) : Option (Input × State) :=
  match s.inputs with
  | [] => none
  | x :: rest => some (x, { s with inputs := rest })

end Sys2Proof.Machine
end

