-- ==== Sys2Proof/Machine/ChecksumValidator.lean ====
section
/-! DEFINITION. The ChecksumValidator's command VERIFY (spec/41_checksum_validator.md). -/

namespace Sys2Proof.Machine

/-- VERIFY (R161): whether the payload's XOR is the checksum, or the refusal `VERIFY_NONHEX` when one of the 12 bytes is not
a hexadecimal character. -/
def execVerify (p : List Byte) (c0 c1 : Byte) (s : State) : Host.Outcome State Fault Refusal :=
  if allHex p && isHex c0 && isHex c1 then .next (s.respond (.verifyResult (xor5 p == hex2 c0 c1)))
  else .next (s.refuse .verifyNonhex)

end Sys2Proof.Machine
end

