-- ==== Sys2Proof/Machine/Environment.lean ====
section
/-! DEFINITION. The steps of the outside world on the block's inputs: BYTE_ARRIVE, TIME_ADVANCE
(spec/44_host_interfaces.md R251, R260) and RESET (spec/70_reset_and_hazards.md R310). -/

namespace Sys2Proof.Machine

/-- BYTE_ARRIVE (R251): enabled in every state. -/
def execByteArrive (b : Byte) (s : State) : Host.Outcome State Fault Refusal := .next (s.arrive b)

/-- TIME_ADVANCE (R260): it only enables the timer's fire, which is a step of its own. -/
def execTimeAdvance (delta : BitVec 64) (s : State) : Host.Outcome State Fault Refusal := .next (s.advance delta.toNat)

/-- RESET (R310): latch the configuration, abandon a decode call, forget presence, disarm the timer. The buffer, the time
and the three logs stay. -/
def execReset (p : Profile) (s : State) : Host.Outcome State Fault Refusal :=
  .next (((s.latch p).setPhase .idle).setPst .absent).cancel

end Sys2Proof.Machine
end

