-- ==== Sys2Proof/Machine/FrameDecoder.lean ====
section
/-! DEFINITION. The FrameDecoder: DECODE, START_ANSWER and BODY_ANSWER (spec/40_frame_decoder.md). -/

namespace Sys2Proof.Machine

/-- DECODE (R120): issue the start request, or refuse `DECODE_BUSY` while a call is in progress. -/
def execDecode (s : State) : Host.Outcome State Fault Refusal :=
  if s.phase = .idle then .next (s.setPhase .waitStart) else .next (s.refuse .decodeBusy)

/-- START_ANSWER (R122), an admissible answer only (R252): `timed_out` ends the call with `NODATA`; the start marker issues
the body request; any other byte ends the call with `BAD_START`. -/
def execStartAnswer (r : Option Byte) (s : State) : Host.Outcome State Fault Refusal :=
  match s.startAnswerFault r with
  | some f => .fault f
  | none =>
    match r with
    | none => .next (s.endCall .noData 0)
    | some b =>
      if b = stx then .next ((s.consume 1).setPhase .waitBody) else .next ((s.consume 1).endCall .badStart 0)

/-- BODY_ANSWER (R124), an admissible answer only (R253): the body is taken from the buffer and checked, and the call ends
with the status of the first failing check, or `OK` with the tag. -/
def execBodyAnswer (body : List Byte) (s : State) : Host.Outcome State Fault Refusal :=
  match s.bodyAnswerFault body with
  | some f => .fault f
  | none => .next ((s.consume body.length).endCall (frameStatus s.cfg body) (hex10 (payloadSlice body)))

end Sys2Proof.Machine
end

