-- ==== Sys2Proof/Machine/PresenceDebouncer.lean ====
section
/-! DEFINITION. The PresenceDebouncer and its grace timer: RAW_ENTER, RAW_LEAVE and GRACE_EXPIRED
(spec/42_presence_debouncer.md). The row numbers are those of R180. -/

namespace Sys2Proof.Machine

/-- RAW_ENTER (R181): rows 1, 3, 4 and 5. -/
def execRawEnter (t2 : Tag) (s : State) : Host.Outcome State Fault Refusal :=
  match s.pst with
  | .absent => .next ((s.setPst (.present t2)).emit (.enter t2))
  | .present t =>
    if t2 = t then .next (s.setPst (.present t2)) else .next ((s.setPst (.present t2)).emit (.enter t2))
  | .debouncing t _ =>
    if t2 = t then .next (s.cancel.setPst (.present t2))
    else .next (((s.cancel.setPst (.present t2)).emit (.leave t)).emit (.enter t2))

/-- RAW_LEAVE (R183): row 2 schedules the grace timer; rows 7 and 8 are no-ops (R184). -/
def execRawLeave (s : State) : Host.Outcome State Fault Refusal :=
  match s.pst with
  | .absent => .next s
  | .present t => .next ((s.setPst (.debouncing t (s.now + s.cfg.grace))).schedule t (s.now + s.cfg.grace))
  | .debouncing _ _ => .next s

/-- GRACE_EXPIRED (R192): the live timer fires from its deadline on (R189), and acts only if its identity is still that of
`pst` (R190). A stale fire, whose identity is not that of `pst`, is a no-op (R193, rows 9 and 10; log 4). -/
def execGraceExpired (t : Tag) (d : Ticks) (s : State) : Host.Outcome State Fault Refusal :=
  if s.tmr = some ⟨t, d⟩ then
    if d ≤ s.now then
      if s.pst = .debouncing t d then .next ((s.cancel.setPst .absent).emit (.leave t)) else .next s.cancel
    else .fault .deadlineNotReached
  else if s.pst = .debouncing t d then .fault .timerNotLive
  else .next s

end Sys2Proof.Machine
end

