-- ==== Sys2Proof/Machine/Dispatch.lean ====
section
/-! DEFINITION. One arm per instruction. -/

namespace Sys2Proof.Machine

/-- What an instruction does to the state: one meaning per row of spec/opcode_table.json. -/
def exec (i : Instr) (s : State) : Host.Outcome State Fault Refusal :=
  match i with
  | .decode => Sys2Proof.Machine.execDecode s
  | .verify p c0 c1 => Sys2Proof.Machine.execVerify p c0 c1 s
  | .rawEnter t => Sys2Proof.Machine.execRawEnter t s
  | .rawLeave => Sys2Proof.Machine.execRawLeave s
  | .timeAdvance delta => Sys2Proof.Machine.execTimeAdvance delta s
  | .byteArrive b => Sys2Proof.Machine.execByteArrive b s
  | .startAnswer r => Sys2Proof.Machine.execStartAnswer r s
  | .bodyAnswer body => Sys2Proof.Machine.execBodyAnswer body s
  | .graceExpired t d => Sys2Proof.Machine.execGraceExpired t d s
  | .reset p => Sys2Proof.Machine.execReset p s

end Sys2Proof.Machine
end

