-- ==== Sys2Proof/Machine/Step.lean ====
section
/-! DEFINITION. One step: the next scheduled input transaction is decoded and applied. -/

namespace Sys2Proof.Machine

/-- Apply one input transaction: a refused command word only leaves its reason in the refusal log (R98, R284); anything
else is the meaning of the instruction it stands for. -/
def applyInput (x : Input) (s : State) : Host.Outcome State Fault Refusal :=
  match decode x with
  | .ok i => exec i s
  | .error r => .next (s.refuse r)

/-- One step of the machine: the next scheduled transaction is taken off the schedule and applied. With nothing scheduled
the block waits and keeps all its state (R286, R312; DESIGN CHOICE, log 2). -/
def step (s : State) : Host.Outcome State Fault Refusal :=
  match s.fetch with
  | some (x, s') => applyInput x s'
  | none => .next s

/-- `s` with the transaction of an opcode-table word placed at the head of the schedule, where `step` takes its next one. -/
def State.withFetchWord (s : State) (nbits w : Nat) : State :=
  { s with inputs := inputOfTableWord nbits w :: s.inputs }

end Sys2Proof.Machine
end

