-- ==== Sys2Proof/Machine/Assembler.lean ====
section
/-! DEFINITION. The spec's assembler statements and its pseudo-instruction as data, and the input transactions each stands
for (spec/30_encoding.md R101, R102). The lexical form of the text is not modelled (log 19). -/

namespace Sys2Proof.Machine

/-- A statement of a test program (R101, R102). -/
inductive Stmt where
  | decode
  | verify (p c : List Byte)
  | rawEnter (t : Tag)
  | rawLeave
  | timeAdvance (delta : BitVec 64)
  /-- `ARRIVE <b>, <b>, ...` -/
  | arrive (bs : List Byte)
  /-- `ANSWER` -/
  | answer
  /-- `FIRE` -/
  | fire
  | reset (p : Profile)
  /-- `.frame <KIND>, payload [, checksum [, trailer]]` -/
  | frame (kind : ReaderKind) (payload : List Byte) (chk trailer : Option (List Byte))
deriving DecidableEq, Repr

/-- The default trailer of `.frame` (R102). -/
def defaultTrailer : ReaderKind → List Byte
  | .id => [0x0D#8, 0x0A#8, 0x03#8]
  | .rdm => [0x03#8]

/-- The frame length of a reader kind (R6). -/
def kindFrameLength (kind : ReaderKind) : Nat := (Profile.mk kind false none 0 0).frameLength

/-- The checksum byte `.frame` supplies when the line omits it: `xor5` of a hexadecimal payload (R102, R160). DESIGN CHOICE
(log 21), safe: the spec states no value for another payload, because R160 defines `xor5` for hexadecimal characters only;
there the line still expands and the byte is a free value. -/
def frameChecksum (payload : List Byte) : Byte :=
  if allHex payload then xor5 payload else Config.undefinedXor5 payload

/-- The bytes `.frame` expands to: payload and checksum must have their fixed lengths and the whole the frame length of the
kind, otherwise the line is an error of the program text (R102). The checksum of a line that gives none is `frameChecksum`,
a free value where the payload is not all hexadecimal (DESIGN CHOICE, log 21). -/
def frameBytes (kind : ReaderKind) (payload : List Byte) (chk trailer : Option (List Byte)) : Option (List Byte) :=
  let c := chk.getD (byteChars (frameChecksum payload))
  let bytes := stx :: payload ++ c ++ trailer.getD (defaultTrailer kind)
  if payload.length = 10 ∧ c.length = 2 ∧ bytes.length = kindFrameLength kind then some bytes else none

/-- The ByteSource's answer to the pending request by the deterministic rule of `ANSWER` (R255), `none` where no answer is
admissible (R101). DESIGN CHOICE (log 19), safe: in WAIT_START with an empty buffer and no primary timeout it is `none`, since
R252 admits no answer there, although R255 names `timed_out` for every empty buffer. -/
def State.answer? (s : State) : Option Instr :=
  match s.phase with
  | .idle => none
  | .waitStart => if s.startAnswerFault s.fifo.head? = none then some (.startAnswer s.fifo.head?) else none
  | .waitBody => some (.bodyAnswer s.bodyAnswerBytes)

/-- The fire of the live timer, `none` where it is not enabled (R101, R189). -/
def State.fire? (s : State) : Option Instr :=
  match s.tmr with
  | none => none
  | some tm => if tm.deadline ≤ s.now then some (.graceExpired tm.tag tm.deadline) else none

/-- The input transactions a statement stands for in a state, in order; `none` for an error of the program text. -/
def Stmt.inputs (s : State) : Stmt → Option (List Input)
  | .decode => some [encode .decode]
  | .verify p c => if p.length = 10 ∧ c.length = 2 then some [encode (.verify p (c.getD 0 0) (c.getD 1 0))] else none
  | .rawEnter t => some [encode (.rawEnter t)]
  | .rawLeave => some [encode .rawLeave]
  | .timeAdvance delta => some [encode (.timeAdvance delta)]
  | .arrive bs => some (bs.map fun b => encode (.byteArrive b))
  | .answer => s.answer?.map fun i => [encode i]
  | .fire => s.fire?.map fun i => [encode i]
  | .reset p => some [encode (.reset p)]
  | .frame kind payload chk trailer => (frameBytes kind payload chk trailer).map fun bs => bs.map fun b => encode (.byteArrive b)

end Sys2Proof.Machine
end

