-- ==== Sys2Proof/Safety.lean ====
section
/-! DEFINITION. What claims are stated in terms of: the invariants of spec/10_state.md R29 and spec/43_event_dispatcher.md
R234, the reachable states, and infinite runs with the fairness premises of spec/60_exceptions.md R295. -/

namespace Sys2Proof

/-! ## Command words -/

/-- The opcodes of the opcode map (R97). -/
def AssignedOpcode (op : BitVec 8) : Prop := op = 0x01#8 ∨ op = 0x02#8 ∨ op = 0x10#8 ∨ op = 0x11#8 ∨ op = 0x20#8

/-- A reserved bit of a command word is set: `rsv` or an operand bit that its opcode does not use (R96, R98). -/
def ReservedBitSet (w : CommandWord) : Prop :=
  ((opField w = 0x01#8 ∨ opField w = 0x11#8) ∧ w.extractLsb' 0 120 ≠ 0) ∨
  (opField w = 0x02#8 ∧ w.extractLsb' 96 24 ≠ 0) ∨
  (opField w = 0x10#8 ∧ w.extractLsb' 40 80 ≠ 0) ∨
  (opField w = 0x20#8 ∧ w.extractLsb' 64 56 ≠ 0)

/-! ## Kinds of instructions -/

/-- The decoder's steps (R71): DECODE and the ByteSource's answers. -/
def Instr.isDecoderStep : Instr → Bool
  | .decode => true
  | .startAnswer _ => true
  | .bodyAnswer _ => true
  | .verify _ _ _ => false
  | .rawEnter _ => false
  | .rawLeave => false
  | .timeAdvance _ => false
  | .byteArrive _ => false
  | .graceExpired _ _ => false
  | .reset _ => false

/-- The debouncer's transitions (R70): the two edges and the timer's fire. -/
def Instr.isDebouncerStep : Instr → Bool
  | .rawEnter _ => true
  | .rawLeave => true
  | .graceExpired _ _ => true
  | .decode => false
  | .verify _ _ _ => false
  | .timeAdvance _ => false
  | .byteArrive _ => false
  | .startAnswer _ => false
  | .bodyAnswer _ => false
  | .reset _ => false

/-- The ByteSource's answers (R250). -/
def Instr.isAnswer : Instr → Bool
  | .startAnswer _ => true
  | .bodyAnswer _ => true
  | .decode => false
  | .verify _ _ _ => false
  | .rawEnter _ => false
  | .rawLeave => false
  | .timeAdvance _ => false
  | .byteArrive _ => false
  | .graceExpired _ _ => false
  | .reset _ => false

namespace Machine

/-! ## Invariants of a state -/

/-- No input was refused (R284: the premise every claim about a run takes). -/
def State.RefusalFree (s : State) : Prop := s.refusals = []

/-- The timer invariant (R29): the live timer is the one `pst` waits for, and there is none otherwise. -/
def State.TimerInv (s : State) : Prop := s.tmr = s.pst.timer?

/-- Whenever a tag is present or debouncing, the last event is its `Enter` (R234). -/
def State.LastEventInv (s : State) : Prop := ∀ t, s.pst.tag? = some t → s.events.getLast? = some (.enter t)

/-- Every `Leave(t)` of the log is immediately preceded by `Enter(t)` (R234). -/
def LeavesFollowEnters (events : List PresenceEvent) : Prop :=
  ∀ (n : Nat) (t : Tag), events[n]? = some (.leave t) → ∃ m, n = m + 1 ∧ events[m]? = some (.enter t)

/-- Every result that is not `OK` carries tag 0 (R91). -/
def State.ResultTagInv (s : State) : Prop :=
  ∀ st t, Response.decodeResult st t ∈ s.respLog → st ≠ .ok → t = 0

/-- The invariant of the machine. -/
structure State.Inv (s : State) : Prop where
  timer : s.TimerInv
  lastEvent : s.LastEventInv
  leaves : LeavesFollowEnters s.events
  resultTags : s.ResultTagInv

/-- The states a run reaches: from any power-on state, with any configuration, buffered bytes, time and schedule, by
steps (R20, R35). -/
inductive Reachable : State → Prop where
  | powerOn (p : Profile) (fifo : List Byte) (now : Ticks) (inputs : List Input) : Reachable (.powerOn p fifo now inputs)
  | step {s t : State} : Reachable s → step s = .next t → Reachable t

/-! ## Finite sequences of steps -/

/-- Apply instructions in order, `none` as soon as one does not answer a next state. -/
def execAll : List Instr → State → Option State
  | [], s => some s
  | i :: rest, s =>
    match exec i s with
    | .next t => execAll rest t
    | .fault _ => none
    | .refused _ => none

/-! ## Infinite runs and fairness (log 15) -/

/-- `σ` is the run that takes the instructions `m` in order, each of them enabled. -/
def IsRun (σ : Nat → State) (m : Nat → Instr) : Prop := ∀ n, exec (m n) (σ n) = .next (σ (n + 1))

/-- The timer for `(t, d)` is live and its deadline has passed (R189). -/
def State.FireEnabled (t : Tag) (d : Ticks) (s : State) : Prop := s.tmr = some ⟨t, d⟩ ∧ d ≤ s.now

/-- START_ANSWER(`r`) is admissible (R252): a start request is pending, and `r` is the byte at the head of the buffer, or
`timed_out` with an empty buffer and a primary timeout. -/
def State.StartAnswerAdmissible (r : Option Byte) (s : State) : Prop :=
  s.phase = .waitStart ∧
    ((∃ b rest, r = some b ∧ s.fifo = b :: rest) ∨ (r = none ∧ s.fifo = [] ∧ s.cfg.primaryTimeout ≠ none))

/-- BODY_ANSWER(`body`) is admissible (R253): a body request is pending, and `body` is the `L - 1` bytes at the head of the
buffer, or every buffered byte when there are fewer. -/
def State.BodyAnswerAdmissible (body : List Byte) (s : State) : Prop :=
  s.phase = .waitBody ∧ ∃ k, body = s.fifo.take k ∧
    ((k = s.cfg.frameLength - 1 ∧ s.cfg.frameLength - 1 ≤ s.fifo.length) ∨
      (k = s.fifo.length ∧ s.fifo.length < s.cfg.frameLength - 1))

/-- Some answer of the ByteSource is admissible (R252, R253). -/
def State.Answerable (s : State) : Prop :=
  s.phase = .waitBody ∨ s.phase = .waitStart ∧ (s.fifo ≠ [] ∨ s.cfg.primaryTimeout ≠ none)

/-- Weak fairness of the timer (R191): a fire that stays enabled is taken. -/
def TimerFair (σ : Nat → State) (m : Nat → Instr) : Prop :=
  ∀ n t d, (∀ k, n ≤ k → (σ k).FireEnabled t d) → ∃ k, n ≤ k ∧ m k = .graceExpired t d

/-- Weak fairness of the ByteSource (R256): while an answer stays admissible, one is eventually given. -/
def ByteSourceFair (σ : Nat → State) (m : Nat → Instr) : Prop :=
  ∀ n, (∀ k, n ≤ k → (σ k).Answerable) → ∃ k, n ≤ k ∧ (m k).isAnswer = true

/-- Time diverges (R260). -/
def TimeDiverges (σ : Nat → State) : Prop := ∀ bound, ∃ n, bound ≤ (σ n).now

end Machine
end Sys2Proof
end

