-- ==== Sys2Proof/Certificates/Slice0/Obligations.lean ====
section
/-! DEFINITION. The statements for the provers. -/

open Sys2Proof Sys2Proof.Machine

/-! ## Encodings -/

/-- Decoding the encoding of a well-formed instruction gives it back, for every instruction and every operand value. -/
def Obligations.DecodeInvertsEncode : Prop :=
  ∀ i : Instr, i.wellFormed = true → decode (encode i) = .ok i

/-- Every input transaction that decodes is the encoding of the instruction it decodes to, and that instruction is well
formed: no two words mean the same instruction. -/
def Obligations.EncodeInvertsDecode : Prop :=
  ∀ (x : Input) (i : Instr), decode x = .ok i → i.wellFormed = true ∧ encode i = x

/-- R98: a command word with an unassigned opcode is refused `ILLEGAL_OPCODE`, otherwise one with a reserved bit set is
refused `RESERVED_BITS`, in both cases with no other effect; every other command word is an instruction. -/
def Obligations.CommandWordsRefusedOrDecoded : Prop :=
  ∀ (s : State) (w : CommandWord) (rest : List Input), s.inputs = .command w :: rest →
    (¬AssignedOpcode (opField w) →
      step s = .next { s with inputs := rest, refusals := s.refusals ++ [.illegalOpcode] }) ∧
    (AssignedOpcode (opField w) → ReservedBitSet w →
      step s = .next { s with inputs := rest, refusals := s.refusals ++ [.reservedBits] }) ∧
    (AssignedOpcode (opField w) → ¬ReservedBitSet w → ∃ i, decode (.command w) = .ok i)

/-- The masks and matches of spec/opcode_table.json select exactly the words the decoder reads as the row's instruction: the
five command rows, and the five 8-bit rows of the internal events. That an 8-bit word with an event code presents the event
with zero operands is the model's choice (log 11); the codes are R99's. -/
def Obligations.OpcodeTableRowsMatchDecoder : Prop :=
  (∀ w : CommandWord,
    (decodeCommand w = .ok .decode ↔
      w &&& 0xFFFFFFFFFFFFFFFFFFFFFFFFFFFFFFFF#128 = 0x01000000000000000000000000000000#128) ∧
    ((∃ p c0 c1, decodeCommand w = .ok (.verify p c0 c1)) ↔
      w &&& 0xFFFFFFFF000000000000000000000000#128 = 0x02000000000000000000000000000000#128) ∧
    ((∃ t, decodeCommand w = .ok (.rawEnter t)) ↔
      w &&& 0xFFFFFFFFFFFFFFFFFFFFFF0000000000#128 = 0x10000000000000000000000000000000#128) ∧
    (decodeCommand w = .ok .rawLeave ↔
      w &&& 0xFFFFFFFFFFFFFFFFFFFFFFFFFFFFFFFF#128 = 0x11000000000000000000000000000000#128) ∧
    ((∃ delta, decodeCommand w = .ok (.timeAdvance delta)) ↔
      w &&& 0xFFFFFFFFFFFFFFFF0000000000000000#128 = 0x20000000000000000000000000000000#128)) ∧
  (∀ c : BitVec 8,
    ((∃ b, decodeTableWord 8 c.toNat = some (.byteArrive b)) ↔ c &&& 0xFF#8 = 0x80#8) ∧
    ((∃ r, decodeTableWord 8 c.toNat = some (.startAnswer r)) ↔ c &&& 0xFF#8 = 0x81#8) ∧
    ((∃ body, decodeTableWord 8 c.toNat = some (.bodyAnswer body)) ↔ c &&& 0xFF#8 = 0x82#8) ∧
    ((∃ t d, decodeTableWord 8 c.toNat = some (.graceExpired t d)) ↔ c &&& 0xFF#8 = 0x83#8) ∧
    ((∃ p, decodeTableWord 8 c.toNat = some (.reset p)) ↔ c &&& 0xFF#8 = 0x84#8))

/-- Words of spec/95_test_vectors.md (DV1, VV1, EN1, EN8, RAW_LEAVE of 2.5, TV1, TV3, RF2, RF5, RF6) decode as written. -/
def Obligations.WrittenWordsDecode : Prop :=
  decodeCommand 0x01000000000000000000000000000000#128 = .ok .decode ∧
  decodeCommand 0x02000000314130303437423343393237#128 =
    .ok (.verify [0x31#8, 0x41#8, 0x30#8, 0x30#8, 0x34#8, 0x37#8, 0x42#8, 0x33#8, 0x43#8, 0x39#8] 0x32#8 0x37#8) ∧
  decodeCommand 0x1000000000000000000000000000002A#128 = .ok (.rawEnter 42#40) ∧
  decodeCommand 0x1000000000000000000000FFFFFFFFFF#128 = .ok (.rawEnter 0xFFFFFFFFFF#40) ∧
  decodeCommand 0x11000000000000000000000000000000#128 = .ok .rawLeave ∧
  decodeCommand 0x20000000000000000000000000000032#128 = .ok (.timeAdvance 50#64) ∧
  decodeCommand 0x2000000000000000FFFFFFFFFFFFFFFF#128 = .ok (.timeAdvance 0xFFFFFFFFFFFFFFFF#64) ∧
  decodeCommand 0x80000000000000000000000000000000#128 = .error .illegalOpcode ∧
  decodeCommand 0x01000000000000000000000000000001#128 = .error .reservedBits ∧
  decodeCommand 0x03000001000000000000000000000000#128 = .error .illegalOpcode ∧
  decode (.event (.byteArrive 0x31#8)) = .ok (.byteArrive 0x31#8) ∧
  decode (.event (.startAnswer (some 0x02#8))) = .ok (.startAnswer (some 0x02#8))

/-- A step takes the next scheduled input transaction off the schedule and runs the instruction it decodes to. With nothing
scheduled it changes nothing; that clause is the model's choice (log 2), as the schedule is (log 1). -/
def Obligations.StepRunsDecodedInput : Prop :=
  (∀ (s : State) (x : Input) (rest : List Input) (i : Instr), s.inputs = x :: rest → decode x = .ok i →
    step s = exec i { s with inputs := rest }) ∧
  (∀ s : State, s.inputs = [] → step s = .next s)

/-! ## Codes and records -/

/-- R90, R92, R93: the code values, which statuses are errors and flush, the frame lengths of the kinds, and that the codes
the spec reserves are never held. -/
def Obligations.CodeValuesAsListed : Prop :=
  (Status.ok.code = 0#8 ∧ Status.noData.code = 1#8 ∧ Status.badStart.code = 2#8 ∧ Status.incomplete.code = 3#8 ∧
    Status.malformed.code = 4#8 ∧ Status.checksum.code = 5#8) ∧
  (∀ st : Status, (st.isError = true ↔ st ≠ .ok ∧ st ≠ .noData) ∧ st.code.toNat ≤ 5) ∧
  (∀ (st : Status) (t : Tag) (s : State), (s.endCall st t).fifo = if st.isError then [] else s.fifo) ∧
  (ReaderKind.id.code = 0#1 ∧ ReaderKind.rdm.code = 1#1) ∧
  (∀ p : Profile, p.frameLength = if p.kind.code = 0#1 then 16 else 14) ∧
  (Phase.idle.code = 0#2 ∧ Phase.waitStart.code = 1#2 ∧ Phase.waitBody.code = 2#2) ∧
  (∀ (t : Tag) (d : Ticks), PresenceState.absent.kindCode = 0#2 ∧ (PresenceState.present t).kindCode = 1#2 ∧
    (PresenceState.debouncing t d).kindCode = 2#2) ∧
  (∀ s : State, s.phase.code ≠ 3#2 ∧ s.pst.kindCode ≠ 3#2)

/-- R94, R100: the fields of a response word and of an event record. -/
def Obligations.RecordWordLayout : Prop :=
  (∀ (st : Status) (t : Tag), let w := (Response.decodeResult st t).word
    w.extractLsb' 56 8 = 0x01#8 ∧ w.extractLsb' 48 8 = st.code ∧ w.extractLsb' 40 8 = 0#8 ∧ w.extractLsb' 0 40 = t) ∧
  (∀ ok : Bool, let w := (Response.verifyResult ok).word
    w.extractLsb' 56 8 = 0x02#8 ∧ w.extractLsb' 1 55 = 0#55 ∧ w.getLsbD 0 = ok) ∧
  (∀ t : Tag, let w := (PresenceEvent.enter t).record
    w.extractLsb' 56 8 = 0x01#8 ∧ w.extractLsb' 40 16 = 0#16 ∧ w.extractLsb' 0 40 = t) ∧
  (∀ t : Tag, let w := (PresenceEvent.leave t).record
    w.extractLsb' 56 8 = 0x02#8 ∧ w.extractLsb' 40 16 = 0#16 ∧ w.extractLsb' 0 40 = t)

/-- R99: the code and the agent of each internal event; an event is presented as itself, and no command word stands for
one. -/
def Obligations.EventCodesAsListed : Prop :=
  (∀ b : Byte, (InternalEvent.byteArrive b).code = 0x80#8 ∧ (Instr.byteArrive b).agent = .bs) ∧
  (∀ r : Option Byte, (InternalEvent.startAnswer r).code = 0x81#8 ∧ (Instr.startAnswer r).agent = .bs) ∧
  (∀ body : List Byte, (InternalEvent.bodyAnswer body).code = 0x82#8 ∧ (Instr.bodyAnswer body).agent = .bs) ∧
  (∀ (t : Tag) (d : Ticks), (InternalEvent.graceExpired t d).code = 0x83#8 ∧ (Instr.graceExpired t d).agent = .tmr) ∧
  (∀ p : Profile, (InternalEvent.reset p).code = 0x84#8 ∧ (Instr.reset p).agent = .resetInput) ∧
  (∀ e : InternalEvent, encode e.toInstr = .event e ∧ ∀ x : Input, decode x = .ok e.toInstr ↔ x = .event e)

/-! ## Hexadecimal characters and the checksum -/

/-- R85, R86: the 22 hexadecimal characters and the values of their digits. -/
def Obligations.HexAlphabetAndValues : Prop :=
  (∀ b : Byte, isHex b = true ↔
    (0x30 ≤ b.toNat ∧ b.toNat ≤ 0x39) ∨ (0x41 ≤ b.toNat ∧ b.toNat ≤ 0x46) ∨ (0x61 ≤ b.toNat ∧ b.toNat ≤ 0x66)) ∧
  (∀ b : Byte, 0x30 ≤ b.toNat → b.toNat ≤ 0x39 → (hexval b).toNat = b.toNat - 0x30) ∧
  (∀ b : Byte, 0x41 ≤ b.toNat → b.toNat ≤ 0x46 → (hexval b).toNat = b.toNat - 0x41 + 10) ∧
  (∀ b : Byte, 0x61 ≤ b.toNat → b.toNat ≤ 0x66 → (hexval b).toNat = b.toNat - 0x61 + 10)

/-- R62, R63, R87, R88: groups and payloads are read in positional notation, first character most significant. -/
def Obligations.HexParsingIsPositional : Prop :=
  (∀ c1 c2 : Byte, isHex c1 = true → isHex c2 = true →
    (hex2 c1 c2).toNat = 16 * (hexval c1).toNat + (hexval c2).toNat) ∧
  (∀ s : List Byte, s.length = 10 → allHex s = true →
    (hex10 s).toNat = ((List.range 10).map fun i => (hexval (s.getD i 0)).toNat * 16 ^ (9 - i)).sum)

/-- R64: the bits of a tag: digit `i` of the payload is four bits of the tag and group `k` eight. -/
def Obligations.TagBitsAreDigits : Prop :=
  ∀ s : List Byte, s.length = 10 → allHex s = true →
    (∀ i, i < 10 → (hex10 s).extractLsb' (36 - 4 * i) 4 = hexval (s.getD i 0)) ∧
    (∀ k, k < 5 → (hex10 s).extractLsb' (32 - 8 * k) 8 = hex2 (s.getD (2 * k) 0) (s.getD (2 * k + 1) 0))

/-- R162: the checksum in terms of the tag, its independence of the order of the groups and of letter case, and its corner
values. -/
def Obligations.ChecksumDependsOnTagBytes : Prop :=
  (∀ p : List Byte, p.length = 10 → allHex p = true →
    xor5 p = (hex10 p).extractLsb' 32 8 ^^^ (hex10 p).extractLsb' 24 8 ^^^ (hex10 p).extractLsb' 16 8 ^^^
      (hex10 p).extractLsb' 8 8 ^^^ (hex10 p).extractLsb' 0 8) ∧
  (∀ p q : List Byte, p.length = 10 → q.length = 10 → allHex p = true → allHex q = true → hex10 p = hex10 q →
    xor5 p = xor5 q) ∧
  (∀ g h : List (Byte × Byte), g.Perm h →
    xor5 (g.flatMap fun c => [c.1, c.2]) = xor5 (h.flatMap fun c => [c.1, c.2])) ∧
  xor5 (List.replicate 10 0x30#8) = 0x00#8 ∧ xor5 (List.replicate 10 0x46#8) = 0xFF#8 ∧
  xor5 (List.replicate 8 0x46#8 ++ List.replicate 2 0x30#8) = 0x00#8

/-! ## ChecksumValidator -/

/-- R160, R161: the result of VERIFY, with the XOR of the five groups written out, and its refusal of a character that is
not hexadecimal. In both cases VERIFY completes, in every decoder phase. -/
def Obligations.VerifyAnswersOrRefuses : Prop :=
  ∀ (s : State) (p0 p1 p2 p3 p4 p5 p6 p7 p8 p9 c0 c1 : Byte),
    let p := [p0, p1, p2, p3, p4, p5, p6, p7, p8, p9]
    let ok := decide (hex2 p0 p1 ^^^ hex2 p2 p3 ^^^ hex2 p4 p5 ^^^ hex2 p6 p7 ^^^ hex2 p8 p9 = hex2 c0 c1)
    ((∀ b ∈ p ++ [c0, c1], isHex b = true) →
      exec (.verify p c0 c1) s = .next { s with respLog := s.respLog ++ [.verifyResult ok] }) ∧
    ((∃ b ∈ p ++ [c0, c1], isHex b = false) →
      exec (.verify p c0 c1) s = .next { s with refusals := s.refusals ++ [.verifyNonhex] })

/-- R164: the checksum characters of a payload verify, a change of either digit's value does not, and a change of its
letter case does. -/
def Obligations.VerifySoundAndDigitSensitive : Prop :=
  ∀ (s : State) (p : List Byte) (d : Byte), p.length = 10 → allHex p = true → isHex d = true →
    let hi := hexChar ((xor5 p).extractLsb' 4 4)
    let lo := hexChar ((xor5 p).extractLsb' 0 4)
    let answer := fun ok => Host.Outcome.next { s with respLog := s.respLog ++ [.verifyResult ok] }
    exec (.verify p hi lo) s = answer true ∧
    (hexval d ≠ hexval hi → exec (.verify p d lo) s = answer false) ∧
    (hexval d ≠ hexval lo → exec (.verify p hi d) s = answer false) ∧
    (hexval d = hexval hi → exec (.verify p d lo) s = answer true) ∧
    (hexval d = hexval lo → exec (.verify p hi d) s = answer true)

/-- R165: with the checksum enabled and hexadecimal characters, BODY_ANSWER gives `OK` exactly when VERIFY of the same
characters gives `ok = 1`, and `CHECKSUM` otherwise; with it disabled the checksum characters do not matter. -/
def Obligations.DecoderAgreesWithVerify : Prop :=
  ∀ (s u : State) (body : List Byte), s.phase = .waitBody → body = s.fifo.take s.cfg.bodyLength →
    body.length = s.cfg.bodyLength → allHex (body.take 10) = true →
    ∃ st tag t, exec (.bodyAnswer body) s = .next t ∧ t.respLog = s.respLog ++ [.decodeResult st tag] ∧
      (s.cfg.checksumEnabled = true → isHex (body.getD 10 0) = true → isHex (body.getD 11 0) = true →
        ∃ ok, exec (.verify (body.take 10) (body.getD 10 0) (body.getD 11 0)) u =
            .next { u with respLog := u.respLog ++ [.verifyResult ok] } ∧
          (ok = true → st = .ok) ∧ (ok = false → st = .checksum)) ∧
      (s.cfg.checksumEnabled = false → st = .ok)

/-- R166: changing two payload groups by the same mask leaves the checksum, so the corrupted frame has the same status as
the good one, and another tag when the mask is not 0. -/
def Obligations.EqualMasksGoUndetected : Prop :=
  ∀ (p q tail : List Byte) (j k : Nat) (m : Byte) (cfg : Profile),
    p.length = 10 → q.length = 10 → allHex p = true → allHex q = true → j < 5 → k < 5 → j ≠ k →
    (∀ g, g < 5 → hex2 (q.getD (2 * g) 0) (q.getD (2 * g + 1) 0) =
      hex2 (p.getD (2 * g) 0) (p.getD (2 * g + 1) 0) ^^^ (if g = j ∨ g = k then m else 0)) →
    xor5 q = xor5 p ∧ frameStatus cfg (q ++ tail) = frameStatus cfg (p ++ tail) ∧ (m ≠ 0 → hex10 q ≠ hex10 p)

/-! ## FrameDecoder -/

/-- R120, R121: DECODE in IDLE issues the start request with the primary timeout; while a call is in progress it is refused
`DECODE_BUSY` and nothing else changes. -/
def Obligations.DecodeStartsOneCall : Prop :=
  (∀ s : State, s.phase = .idle →
    exec .decode s = .next { s with phase := .waitStart } ∧
    State.pendingRequest { s with phase := .waitStart } = some (.readOne s.cfg.primaryTimeout)) ∧
  (∀ s : State, s.phase ≠ .idle →
    exec .decode s = .next { s with refusals := s.refusals ++ [.decodeBusy] })

/-- R122, R123: the three results of an admissible START_ANSWER. -/
def Obligations.StartAnswerResults : Prop :=
  ∀ s : State, s.phase = .waitStart →
    (s.fifo = [] → s.cfg.primaryTimeout ≠ none → exec (.startAnswer none) s =
      .next { s with phase := .idle, respLog := s.respLog ++ [.decodeResult .noData 0] }) ∧
    (∀ rest, s.fifo = 0x02#8 :: rest → exec (.startAnswer (some 0x02#8)) s =
        .next { s with phase := .waitBody, fifo := rest } ∧
      State.pendingRequest { s with phase := .waitBody, fifo := rest } =
        some (.readN (s.cfg.frameLength - 1) s.cfg.intraTimeout)) ∧
    (∀ b rest, s.fifo = b :: rest → b ≠ 0x02#8 → exec (.startAnswer (some b)) s =
      .next { s with phase := .idle, fifo := [], respLog := s.respLog ++ [.decodeResult .badStart 0] })

/-- R252: START_ANSWER is taken exactly when a request is pending and the answer is the byte at the head of the buffer, or
`timed_out` with an empty buffer and a primary timeout. -/
def Obligations.StartAnswerAdmissibility : Prop :=
  ∀ (s : State) (r : Option Byte), (∃ t, exec (.startAnswer r) s = .next t) ↔
    s.phase = .waitStart ∧
      ((∃ b rest, r = some b ∧ s.fifo = b :: rest) ∨ (r = none ∧ s.fifo = [] ∧ s.cfg.primaryTimeout ≠ none))

/-- R124: the result of an admissible BODY_ANSWER, by the checks in their order. -/
def Obligations.BodyAnswerResults : Prop :=
  ∀ s : State, s.phase = .waitBody →
    let n := s.cfg.frameLength - 1
    let body := s.fifo.take n
    let payload := s.fifo.take 10
    let c0 := s.fifo.getD 10 0
    let c1 := s.fifo.getD 11 0
    let hexPayload := ∀ b ∈ payload, isHex b = true
    let goodChecksum := isHex c0 = true ∧ isHex c1 = true ∧ xor5 payload = hex2 c0 c1
    let fails := fun st => Host.Outcome.next
      { s with phase := .idle, fifo := [], respLog := s.respLog ++ [.decodeResult st 0] }
    (s.fifo.length < n → exec (.bodyAnswer body) s = fails .incomplete) ∧
    (n ≤ s.fifo.length → ¬hexPayload → exec (.bodyAnswer body) s = fails .malformed) ∧
    (n ≤ s.fifo.length → hexPayload → s.cfg.checksumEnabled = true → ¬goodChecksum →
      exec (.bodyAnswer body) s = fails .checksum) ∧
    (n ≤ s.fifo.length → hexPayload → (s.cfg.checksumEnabled = true → goodChecksum) →
      exec (.bodyAnswer body) s = .next { s with
        phase := .idle, fifo := s.fifo.drop n, respLog := s.respLog ++ [.decodeResult .ok (hex10 payload)] })

/-- R253: BODY_ANSWER is taken exactly when a request is pending and the answer is the full one, or the short one that takes
every buffered byte. -/
def Obligations.BodyAnswerAdmissibility : Prop :=
  ∀ (s : State) (body : List Byte), (∃ t, exec (.bodyAnswer body) s = .next t) ↔
    s.phase = .waitBody ∧ ∃ k, body = s.fifo.take k ∧
      ((k = s.cfg.frameLength - 1 ∧ s.cfg.frameLength - 1 ≤ s.fifo.length) ∨
        (k = s.fifo.length ∧ s.fifo.length < s.cfg.frameLength - 1))

/-- The model's own treatment (log 3) of answers the spec does not admit (R252, R253): each stops with its name. -/
def Obligations.InadmissibleAnswersStop : Prop :=
  (∀ (s : State) (r : Option Byte), s.phase ≠ .waitStart → exec (.startAnswer r) s = .fault .noStartRequest) ∧
  (∀ s : State, s.phase = .waitStart → s.fifo ≠ [] → exec (.startAnswer none) s = .fault .timedOutWhileBuffered) ∧
  (∀ s : State, s.phase = .waitStart → s.fifo = [] → s.cfg.primaryTimeout = none →
    exec (.startAnswer none) s = .fault .timedOutUnbounded) ∧
  (∀ (s : State) (b : Byte), s.phase = .waitStart → s.fifo.head? ≠ some b →
    exec (.startAnswer (some b)) s = .fault .startAnswerNotHead) ∧
  (∀ (s : State) (body : List Byte), s.phase ≠ .waitBody → exec (.bodyAnswer body) s = .fault .noBodyRequest) ∧
  (∀ (s : State) (body : List Byte), s.phase = .waitBody → body ≠ s.fifo.take (s.cfg.frameLength - 1) →
    exec (.bodyAnswer body) s = .fault .bodyAnswerInadmissible)

/-- R126: the step that produces an error status leaves an empty buffer; `NODATA` leaves the buffer as it was, and `OK`
leaves what follows the body that was read. -/
def Obligations.FlushExactlyOnError : Prop :=
  ∀ (i : Instr) (s t : State) (st : Status) (tag : Tag), exec i s = .next t →
    t.respLog = s.respLog ++ [.decodeResult st tag] →
    ((st = .badStart ∨ st = .incomplete ∨ st = .malformed ∨ st = .checksum) → t.fifo = []) ∧
    (st = .noData → t.fifo = s.fifo) ∧
    (st = .ok → t.fifo = s.fifo.drop (s.cfg.frameLength - 1))

/-- R76: a flush discards the bytes buffered at its step; a byte that arrives after it is kept and is the first one a later
read sees: after DECODE, the answer to the start request is that byte and no other, and it is taken from the buffer. -/
def Obligations.ArrivalAfterFlushIsFirst : Prop :=
  ∀ (i : Instr) (s t : State) (st : Status) (tag : Tag) (b c : Byte), exec i (s.arrive b) = .next t →
    t.respLog = s.respLog ++ [.decodeResult st tag] → st.isError = true →
    t.fifo = [] ∧ ∃ u v w, exec (.byteArrive c) t = .next u ∧ u.fifo = [c] ∧ exec .decode u = .next v ∧
      exec (.startAnswer (some c)) v = .next w ∧ w.fifo = [] ∧
      ∀ (r : Option Byte) (z : State), exec (.startAnswer r) v = .next z → r = some c

/-- R133, R128: the rows of the phase table are the only ways the phase changes, RESET aside. -/
def Obligations.PhaseChangesFollowTable : Prop :=
  ∀ (i : Instr) (s t : State), exec i s = .next t → t.phase ≠ s.phase →
    (s.phase = .idle ∧ i = .decode ∧ t.phase = .waitStart) ∨
    (s.phase = .waitStart ∧ i = .startAnswer none ∧ t.phase = .idle) ∨
    (s.phase = .waitStart ∧ i = .startAnswer (some 0x02#8) ∧ t.phase = .waitBody) ∨
    (s.phase = .waitStart ∧ (∃ b, b ≠ 0x02#8 ∧ i = .startAnswer (some b)) ∧ t.phase = .idle) ∨
    (s.phase = .waitBody ∧ (∃ body, i = .bodyAnswer body) ∧ t.phase = .idle) ∨
    ((∃ p, i = .reset p) ∧ t.phase = .idle)

/-- R133: RESET aside, a step ends a decode call exactly when it appends a `DecodeResult`, and then it appends just one. -/
def Obligations.CallEndsWithOneResult : Prop :=
  ∀ (i : Instr) (s t : State), exec i s = .next t → (∀ p, i ≠ .reset p) →
    ((s.phase ≠ .idle ∧ t.phase = .idle) ↔ ∃ st tag, t.respLog = s.respLog ++ [.decodeResult st tag]) ∧
    ((∃ st tag, Response.decodeResult st tag ∈ t.respLog.drop s.respLog.length) →
      ∃ st tag, t.respLog = s.respLog ++ [.decodeResult st tag])

/-- R283: after any status the decoder is IDLE and accepts DECODE. -/
def Obligations.NoDecodeErrorIsFatal : Prop :=
  ∀ (i : Instr) (s t : State) (st : Status) (tag : Tag), exec i s = .next t →
    t.respLog = s.respLog ++ [.decodeResult st tag] →
    t.phase = .idle ∧ exec .decode t = .next { t with phase := .waitStart }

/-- R83: two complete bodies that agree on the payload and the checksum characters, or on the payload alone when the
checksum is disabled, lead to the same next state: the trailer is not examined. -/
def Obligations.TrailerIsNotExamined : Prop :=
  ∀ (s : State) (a b rest : List Byte), s.phase = .waitBody →
    a.length = s.cfg.frameLength - 1 → b.length = s.cfg.frameLength - 1 →
    (a.take 12 = b.take 12 ∨ s.cfg.checksumEnabled = false ∧ a.take 10 = b.take 10) →
    ∃ t, exec (.bodyAnswer a) { s with fifo := a ++ rest } = .next t ∧
      exec (.bodyAnswer b) { s with fifo := b ++ rest } = .next t

/-- R130: the frame of a tag, with any trailer and whether or not the checksum is enabled, decodes to that tag and leaves
the bytes behind it. -/
def Obligations.DecodeOfTagFrameIsTag : Prop :=
  ∀ (s : State) (t : Tag) (trailer rest : List Byte), s.phase = .idle → trailer.length = s.cfg.frameLength - 13 →
    let body := tagChars t ++ byteChars (xor5 (tagChars t)) ++ trailer
    s.fifo = 0x02#8 :: body ++ rest →
    execAll [.decode, .startAnswer (some 0x02#8), .bodyAnswer body] s =
      some { s with fifo := rest, respLog := s.respLog ++ [.decodeResult .ok t] }

/-- R286: with no primary timeout and an empty buffer no answer is admissible, and a byte that arrives can be answered. -/
def Obligations.WaitIsLiftedByArrival : Prop :=
  ∀ s : State, s.phase = .waitStart → s.cfg.primaryTimeout = none → s.fifo = [] →
    (∀ (r : Option Byte) (t : State), exec (.startAnswer r) s ≠ .next t) ∧
    (∀ (body : List Byte) (t : State), exec (.bodyAnswer body) s ≠ .next t) ∧
    (∀ b : Byte, ∃ t u, exec (.byteArrive b) s = .next t ∧ exec (.startAnswer (some b)) t = .next u ∧
      u.phase ≠ .waitStart)

/-- R256: under the ByteSource's fairness, a decode call in progress with a primary timeout, or one for which a byte is
buffered at some time, comes back to IDLE in every run that is not reset. -/
def Obligations.FairDecodeCallEnds : Prop :=
  ∀ (run : Nat → State) (moves : Nat → Instr), IsRun run moves → ByteSourceFair run moves →
    (∀ n p, moves n ≠ .reset p) → (run 0).phase ≠ .idle →
    ((run 0).cfg.primaryTimeout ≠ none ∨ ∃ n, (run n).fifo ≠ []) →
    ∃ n, (run n).phase = .idle

/-! ## PresenceDebouncer -/

/-- R181: RAW_ENTER in each state of the table (rows 1, 3, 4, 5). -/
def Obligations.RawEnterResults : Prop :=
  ∀ (s : State) (t2 : Tag),
    (s.pst = .absent →
      exec (.rawEnter t2) s = .next { s with pst := .present t2, events := s.events ++ [.enter t2] }) ∧
    (s.pst = .present t2 → exec (.rawEnter t2) s = .next s) ∧
    (∀ t, s.pst = .present t → t2 ≠ t →
      exec (.rawEnter t2) s = .next { s with pst := .present t2, events := s.events ++ [.enter t2] }) ∧
    (∀ d, s.pst = .debouncing t2 d →
      exec (.rawEnter t2) s = .next { s with pst := .present t2, tmr := none }) ∧
    (∀ t d, s.pst = .debouncing t d → t2 ≠ t →
      exec (.rawEnter t2) s =
        .next { s with pst := .present t2, tmr := none, events := s.events ++ [.leave t, .enter t2] })

/-- R183, R184, R185: RAW_LEAVE in each state of the table (rows 2, 7, 8); the deadline is `now + grace` without wrap. -/
def Obligations.RawLeaveResults : Prop :=
  ∀ s : State,
    (∀ t, s.pst = .present t → exec .rawLeave s = .next { s with
      pst := .debouncing t (s.now + s.cfg.grace), tmr := some ⟨t, s.now + s.cfg.grace⟩ }) ∧
    (s.pst = .absent → exec .rawLeave s = .next s) ∧
    (∀ t d, s.pst = .debouncing t d → exec .rawLeave s = .next s)

/-- R192: the fire of the live timer at or after its deadline confirms the leave; if its identity is no longer that of `pst`
it only clears the timer. -/
def Obligations.GraceExpiredResults : Prop :=
  ∀ (s : State) (t : Tag) (d : Ticks), s.tmr = some ⟨t, d⟩ → d ≤ s.now →
    (s.pst = .debouncing t d →
      exec (.graceExpired t d) s =
        .next { s with pst := .absent, tmr := none, events := s.events ++ [.leave t] }) ∧
    (s.pst ≠ .debouncing t d → exec (.graceExpired t d) s = .next { s with tmr := none })

/-- R193: a GRACE_EXPIRED whose identity is not that of `pst` changes nothing. The timer invariant is the premise that rules
out a live timer for another state; without it only the timer may be cleared (R192). -/
def Obligations.StaleFireChangesNothing : Prop :=
  ∀ (s : State) (t : Tag) (d : Ticks), s.pst ≠ .debouncing t d →
    (s.TimerInv → exec (.graceExpired t d) s = .next s) ∧
    (∀ u, exec (.graceExpired t d) s = .next u → u = s ∨ u = { s with tmr := none })

/-- R189: under the timer invariant, GRACE_EXPIRED has an effect exactly when its timer is live and its deadline has come;
before the deadline the live timer's fire is not taken. -/
def Obligations.FireEnabledFromDeadline : Prop :=
  ∀ (s : State) (t : Tag) (d : Ticks), s.TimerInv →
    ((∃ u, exec (.graceExpired t d) s = .next u ∧ u ≠ s) ↔ s.tmr = some ⟨t, d⟩ ∧ d ≤ s.now) ∧
    (s.tmr = some ⟨t, d⟩ → s.now < d → exec (.graceExpired t d) s = .fault .deadlineNotReached)

/-- R29: in every reachable state the live timer is the one the debouncing state waits for, and there is none in the other
states. Reachable: from any power-on state, with any configuration, buffer, time and schedule. -/
def Obligations.TimerMatchesPresenceReachable : Prop :=
  ∀ s : State, Reachable s →
    (∀ (t : Tag) (d : Ticks), s.tmr = some ⟨t, d⟩ ↔ s.pst = .debouncing t d) ∧
    ((∀ (t : Tag) (d : Ticks), s.pst ≠ .debouncing t d) → s.tmr = none)

/-- Every step keeps the machine's invariant: the timer matches the presence state (R29), the last event is the `Enter` of
the tag that is present or debouncing and every `Leave` follows its `Enter` (R234), results that are not `OK` carry tag 0
(R91). -/
def Obligations.InvariantKeptByStep : Prop :=
  ∀ s t : State, s.Inv → step s = .next t → t.Inv

/-- The invariant holds after power-on, whatever the environment, and in the model's reset state. -/
def Obligations.InvariantHoldsAtReset : Prop :=
  (∀ (p : Profile) (fifo : List Byte) (now : Ticks) (inputs : List Input), (State.powerOn p fifo now inputs).Inv) ∧
  State.reset.Inv

/-- R234: the shape of the event log. -/
def Obligations.EventLogShape : Prop :=
  (∀ s : State, Reachable s →
    (∀ (t : Tag), (s.pst = .present t ∨ ∃ d, s.pst = .debouncing t d) → s.events.getLast? = some (.enter t)) ∧
    (∀ (n : Nat) (t : Tag), s.events[n]? = some (.leave t) → ∃ m, n = m + 1 ∧ s.events[m]? = some (.enter t)) ∧
    (∀ (n : Nat) (t u : Tag), s.events[n]? = some (.leave t) → s.events[n + 1]? ≠ some (.leave u))) ∧
  (∀ (s u : State) (p : Profile) (moves : List Instr), execAll (.reset p :: moves) s = some u →
    u.events = s.events ∨ ∃ t tail, u.events = s.events ++ .enter t :: tail) ∧
  (∀ (s : State) (t t2 : Tag), s.pst = .present t → t2 ≠ t →
    ∃ u, exec (.rawEnter t2) s = .next u ∧ u.events = s.events ++ [.enter t2]) ∧
  (∀ (s : State) (p : Profile), ∃ u, exec (.reset p) s = .next u ∧ u.events = s.events)

/-- R198: RESET aside, a present tag stays present, is replaced by another present tag, or is debouncing itself. -/
def Obligations.PresentStaysOrDebounces : Prop :=
  ∀ (i : Instr) (s u : State) (t : Tag), exec i s = .next u → s.pst = .present t →
    ((∀ p, i ≠ .reset p) → (∃ t2, u.pst = .present t2) ∨ ∃ d, u.pst = .debouncing t d) ∧
    ((∃ p, i = .reset p) → u.pst = .absent)

/-- R194: the only step that appends two events is RAW_ENTER of another tag while debouncing, and it appends the `Leave`
before the `Enter`; no step appends more. -/
def Obligations.TwoEventsOnlyOnTagSwitch : Prop :=
  ∀ (i : Instr) (s u : State), exec i s = .next u →
    u.events.length ≤ s.events.length + 2 ∧
    (s.events.length + 2 ≤ u.events.length → ∃ t d t2, s.pst = .debouncing t d ∧ i = .rawEnter t2 ∧ t2 ≠ t ∧
      u.events = s.events ++ [.leave t, .enter t2])

/-- R195: flicker absorption. After RAW_LEAVE in Present(t), whatever other steps than an edge of entry or a RESET come
between, RAW_ENTER(t) before the grace period has passed returns to Present(t), and nothing was emitted. -/
def Obligations.FlickerIsAbsorbed : Prop :=
  ∀ (s u : State) (t : Tag) (moves : List Instr), s.pst = .present t → s.tmr = none →
    (∀ i ∈ moves, (∀ t2, i ≠ .rawEnter t2) ∧ ∀ p, i ≠ .reset p) →
    execAll (.rawLeave :: moves) s = some u → u.now < s.now + s.cfg.grace →
    u.events = s.events ∧ exec (.rawEnter t) u = .next { u with pst := .present t, tmr := none }

/-- R196: confirmed leave. In a run with a fair timer whose time advances to at least the deadline, a RAW_LEAVE in Present(t)
that no RAW_ENTER and no RESET follows leads to Absent with exactly one `Leave(t)`, for good. -/
def Obligations.ConfirmedLeaveIsEmittedOnce : Prop :=
  ∀ (run : Nat → State) (moves : Nat → Instr) (t : Tag), IsRun run moves → TimerFair run moves →
    (∃ n, (run 0).now + (run 0).cfg.grace ≤ (run n).now) → (run 0).pst = .present t → (run 0).tmr = none → moves 0 = .rawLeave →
    (∀ n, (∀ t2, moves n ≠ .rawEnter t2) ∧ ∀ p, moves n ≠ .reset p) →
    ∃ n, ∀ k, n ≤ k → (run k).pst = .absent ∧ (run k).events = (run 0).events ++ [.leave t]

/-- R197: tag switch while debouncing. RAW_LEAVE in Present(t1), then other steps but no edge of entry, no RESET and no
fire, then RAW_ENTER(t2): Present(t2), `Leave(t1)` then `Enter(t2)`, and the cancelled timer is not enabled to fire (a stale
fire would do nothing, R193, log 4). -/
def Obligations.TagSwitchWhileDebouncing : Prop :=
  ∀ (s u : State) (t1 t2 : Tag) (moves : List Instr), s.pst = .present t1 → s.tmr = none → t2 ≠ t1 →
    (∀ i ∈ moves, (∀ t, i ≠ .rawEnter t) ∧ (∀ p, i ≠ .reset p) ∧ ∀ t d, i ≠ .graceExpired t d) →
    execAll (.rawLeave :: moves) s = some u →
    ∃ v, exec (.rawEnter t2) u = .next v ∧ v.pst = .present t2 ∧ v.tmr = none ∧
      v.events = s.events ++ [.leave t1, .enter t2] ∧
      (∀ d, ¬v.FireEnabled t1 d) ∧ exec (.graceExpired t1 (s.now + s.cfg.grace)) v = .next v

/-- R199: once the deadline has come, the fire first and RAW_ENTER first are both possible, with different events. -/
def Obligations.DeadlineRaceHasBothOrders : Prop :=
  ∀ (s : State) (t : Tag) (d : Ticks), s.pst = .debouncing t d → s.tmr = some ⟨t, d⟩ → d ≤ s.now →
    execAll [.graceExpired t d, .rawEnter t] s =
      some { s with pst := .present t, tmr := none, events := s.events ++ [.leave t, .enter t] } ∧
    execAll [.rawEnter t] s = some { s with pst := .present t, tmr := none }

/-! ## The environment, RESET, and the machine as a whole -/

/-- R251, R260: a byte arrives at the tail of the buffer; time passes without wrap and fires nothing. -/
def Obligations.ArrivalAndTimeResults : Prop :=
  (∀ (s : State) (b : Byte), exec (.byteArrive b) s = .next { s with fifo := s.fifo ++ [b] }) ∧
  (∀ (s : State) (delta : BitVec 64), exec (.timeAdvance delta) s = .next { s with now := s.now + delta.toNat })

/-- R310, R35: what RESET writes and what it leaves, and every piece of state at power-on: the time and the buffer are
arbitrary, that is, whatever they are given as. `body` exists only inside a BODY_ANSWER step, so the state has no such
field (R25). -/
def Obligations.ResetLatchesAndClears : Prop :=
  (∀ (s : State) (p : Profile),
    exec (.reset p) s = .next { s with cfg := p, phase := .idle, pst := .absent, tmr := none }) ∧
  (∀ p : Profile, p.frameLength = (if p.kind = .id then 16 else 14) ∧ p.trailerLength = p.frameLength - 13) ∧
  (∀ (p : Profile) (fifo : List Byte) (now : Ticks) (inputs : List Input),
    let s := State.powerOn p fifo now inputs
    s.cfg = p ∧ s.phase = .idle ∧ s.pst = .absent ∧ s.pst.tag? = none ∧ s.pst.deadline? = none ∧ s.tmr = none ∧
      s.events = [] ∧ s.respLog = [] ∧ s.refusals = [] ∧ s.now = now ∧ s.fifo = fifo)

/-- Which instructions write which state: `cfg` only RESET (R22), `dec.phase` only the decoder's steps and RESET (R23),
`pst` and `tmr` only the debouncer's and RESET (R27, R28), `events` only the debouncer's (R30), `resp_log` only answers and
VERIFY (R24), `bs.fifo` only the ByteSource's steps (R33), `now` only TIME_ADVANCE, which never decreases it (R32). No
instruction writes the schedule. -/
def Obligations.WritersOfEachField : Prop :=
  ∀ (i : Instr) (s t : State), exec i s = .next t →
    (t.cfg ≠ s.cfg → ∃ p, i = .reset p) ∧
    (t.phase ≠ s.phase → i.isDecoderStep = true ∨ ∃ p, i = .reset p) ∧
    (t.pst ≠ s.pst → i.isDebouncerStep = true ∨ ∃ p, i = .reset p) ∧
    (t.tmr ≠ s.tmr → i.isDebouncerStep = true ∨ ∃ p, i = .reset p) ∧
    (t.events ≠ s.events → i.isDebouncerStep = true) ∧
    (t.respLog ≠ s.respLog → i.isAnswer = true ∨ ∃ p c0 c1, i = .verify p c0 c1) ∧
    (t.fifo ≠ s.fifo → i.isAnswer = true ∨ ∃ b, i = .byteArrive b) ∧
    (t.now ≠ s.now → ∃ delta, i = .timeAdvance delta) ∧
    (t.refusals ≠ s.refusals → i = .decode ∨ ∃ p c0 c1, i = .verify p c0 c1) ∧
    s.now ≤ t.now ∧ t.inputs = s.inputs

/-- Frame of the decoder's steps and VERIFY (R71): everything the decoder does not own is unchanged. -/
def Obligations.DecoderStepsFrame : Prop :=
  (∀ (i : Instr) (s t : State), exec i s = .next t → i.isDecoderStep = true →
    t.cfg = s.cfg ∧ t.pst = s.pst ∧ t.tmr = s.tmr ∧ t.events = s.events ∧ t.now = s.now ∧ t.inputs = s.inputs) ∧
  (∀ s t : State, exec .decode s = .next t → t.respLog = s.respLog ∧ t.fifo = s.fifo) ∧
  (∀ (i : Instr) (s t : State), exec i s = .next t → i.isAnswer = true → t.refusals = s.refusals) ∧
  (∀ (s t : State) (p : List Byte) (c0 c1 : Byte), exec (.verify p c0 c1) s = .next t →
    t = { s with respLog := t.respLog, refusals := t.refusals })

/-- Frame of the debouncer's steps (R71): they write `pst`, `tmr` and `events` and nothing else. -/
def Obligations.DebouncerStepsFrame : Prop :=
  ∀ (i : Instr) (s t : State), exec i s = .next t → i.isDebouncerStep = true →
    t = { s with pst := t.pst, tmr := t.tmr, events := t.events }

/-- R71: a decoder step and a debouncer step commute: either order gives the same state, and neither changes whether the
other is enabled. That a step which is not enabled is a fault, with its name, is the model's choice (log 3). -/
def Obligations.DecoderAndDebouncerCommute : Prop :=
  ∀ (i j : Instr) (s : State), i.isDecoderStep = true → j.isDebouncerStep = true →
    (∀ s1 s2, exec i s = .next s1 → exec j s = .next s2 → ∃ u, exec j s1 = .next u ∧ exec i s2 = .next u) ∧
    (∀ s2 f, exec j s = .next s2 → (exec i s = .fault f ↔ exec i s2 = .fault f)) ∧
    (∀ s1 f, exec i s = .next s1 → (exec j s = .fault f ↔ exec j s1 = .fault f))

/-- The three logs are appended to and never rewritten (R24, R30, R31). -/
def Obligations.LogsOnlyGrow : Prop :=
  ∀ s t : State, step s = .next t → s.events <+: t.events ∧ s.respLog <+: t.respLog ∧ s.refusals <+: t.refusals

/-- R284: a step that raises a refusal appends its reason and changes no other state of the block (the transaction is taken
off the schedule, as in every step). -/
def Obligations.RefusalChangesNothingElse : Prop :=
  ∀ s t : State, step s = .next t → t.refusals ≠ s.refusals →
    ∃ r, t = { s with inputs := s.inputs.tail, refusals := s.refusals ++ [r] }

/-- R285: which transaction is refused for which of the four reasons that this model can raise. That `REENTRANT` is raised by
no step is the model's limit, not the spec's rule: R285 raises it where an implementation can detect an edge delivered from
inside the observer, which the model cannot express (R233, log 17). -/
def Obligations.RefusalReasonsAsListed : Prop :=
  ∀ (s t : State) (r : RefusalReason), step s = .next t → t.refusals = s.refusals ++ [r] →
    ∃ x rest, s.inputs = x :: rest ∧
      ((r = .illegalOpcode ∧ ∃ w, x = .command w ∧ ¬AssignedOpcode (opField w)) ∨
        (r = .reservedBits ∧ ∃ w, x = .command w ∧ AssignedOpcode (opField w) ∧ ReservedBitSet w) ∨
        (r = .decodeBusy ∧ decode x = .ok .decode ∧ s.phase ≠ .idle) ∨
        (r = .verifyNonhex ∧ ∃ p c0 c1, decode x = .ok (.verify p c0 c1) ∧ ∃ b ∈ p ++ [c0, c1], isHex b = false))

/-- Where the machine stops (log 3): only when the schedule asks for an answer that is not admissible (R252, R253) or for a
fire that is not enabled (R189). It never refuses at the host's interface, and the fault `timerNotLive` needs a state that
breaks the timer invariant (log 4). -/
def Obligations.StopsOnlyOnStepsNotEnabled : Prop :=
  ∀ s : State,
    (∀ r, step s ≠ .refused r) ∧
    (∀ f, step s = .fault f → ∃ x rest i, s.inputs = x :: rest ∧ decode x = .ok i ∧
      ((∃ r, i = .startAnswer r ∧ ¬s.StartAnswerAdmissible r) ∨
        (∃ body, i = .bodyAnswer body ∧ ¬s.BodyAnswerAdmissible body) ∨
        ∃ t d, i = .graceExpired t d ∧ ¬s.FireEnabled t d)) ∧
    (s.TimerInv → step s ≠ .fault .timerNotLive)

/-! ## The assembler's statements -/

/-- The answer of the `ANSWER` statement (R255) is admissible, is the only admissible one in its state, and exists exactly when
some answer is admissible. That it has none in WAIT_START with an empty buffer and no primary timeout is the model's choice
(log 19): R255 names `timed_out` for every empty buffer, and R252 does not admit it there. -/
def Obligations.AnswerStatementIsTheAdmissibleOne : Prop :=
  ∀ s : State,
    (∀ i, s.answer? = some i ↔ i.isAnswer = true ∧ ∃ t, exec i s = .next t) ∧
    (s.answer? ≠ none ↔ s.Answerable)

/-- R102: what `.frame` expands to: the checksum and the trailer of the line, or their defaults, and the length of every
expansion. A payload that is not all hexadecimal still expands with the checksum omitted, to characters of a value that is
free: the model's choice (log 21). -/
def Obligations.FrameStatementExpansion : Prop :=
  (∀ (kind : ReaderKind) (t : Tag), frameBytes kind (tagChars t) none none =
    some (0x02#8 :: tagChars t ++ byteChars (xor5 (tagChars t)) ++
      (if kind = .id then [0x0D#8, 0x0A#8, 0x03#8] else [0x03#8]))) ∧
  (∀ (kind : ReaderKind) (payload chk trailer : List Byte), payload.length = 10 → chk.length = 2 →
    trailer.length = (if kind = .id then 3 else 1) →
    frameBytes kind payload (some chk) (some trailer) = some (0x02#8 :: payload ++ chk ++ trailer)) ∧
  (∀ (kind : ReaderKind) (payload : List Byte) (trailer : Option (List Byte)), allHex payload = true →
    frameBytes kind payload none trailer = frameBytes kind payload (some (byteChars (xor5 payload))) trailer) ∧
  (∀ (kind : ReaderKind) (payload : List Byte) (trailer : Option (List Byte)), allHex payload = false →
    ∃ v, frameBytes kind payload none trailer = frameBytes kind payload (some (byteChars v)) trailer) ∧
  (∀ (kind : ReaderKind) (payload : List Byte) (chk : Option (List Byte)),
    frameBytes kind payload chk none =
      frameBytes kind payload chk (some (if kind = .id then [0x0D#8, 0x0A#8, 0x03#8] else [0x03#8]))) ∧
  (∀ (kind : ReaderKind) (payload : List Byte) (chk trailer : Option (List Byte)) (bs : List Byte),
    frameBytes kind payload chk trailer = some bs → bs.length = if kind = .id then 16 else 14)
end

