-- ==== Sys2Proof/Laws/Hex.lean ====
section
/-! SUPPORT. The hexadecimal helpers: characters of digits, lengths, and the checksum's groups. -/

namespace Sys2Proof

@[simp] theorem isHex_hexChar (n : BitVec 4) : isHex (hexChar n) = true := by revert n; decide

@[simp] theorem hexval_hexChar (n : BitVec 4) : hexval (hexChar n) = n := by revert n; decide

@[simp] theorem length_tagChars (t : Tag) : (tagChars t).length = 10 := by simp [tagChars]

@[simp] theorem length_byteChars (b : Byte) : (byteChars b).length = 2 := rfl

@[simp] theorem allHex_nil : allHex [] = true := rfl

@[simp] theorem allHex_cons (b : Byte) (s : List Byte) : allHex (b :: s) = (isHex b && allHex s) := rfl

theorem allHex_append (s t : List Byte) : allHex (s ++ t) = (allHex s && allHex t) := by simp [allHex]

@[simp] theorem allHex_tagChars (t : Tag) : allHex (tagChars t) = true := by simp [allHex, tagChars]

@[simp] theorem allHex_byteChars (b : Byte) : allHex (byteChars b) = true := by simp [byteChars]

/-- The accumulator of the checksum comes out of the reduction. -/
theorem xorGroups_acc (acc : Byte) (s : List Byte) : xorGroups acc s = acc ^^^ xorGroups 0 s := by
  induction s using List.twoStepInduction generalizing acc with
  | nil => simp [xorGroups]
  | singleton c => simp [xorGroups]
  | cons_cons c1 c2 rest ih _ =>
    rw [xorGroups, xorGroups, ih, ih (0 ^^^ hex2 c1 c2)]
    simp [BitVec.xor_assoc]

@[simp] theorem xor5_nil : xor5 [] = 0 := rfl

theorem xor5_cons (c1 c2 : Byte) (rest : List Byte) : xor5 (c1 :: c2 :: rest) = hex2 c1 c2 ^^^ xor5 rest := by
  unfold xor5; rw [xorGroups, xorGroups_acc]; simp

/-- Parsing the two characters of a byte gives it back. -/
@[simp] theorem hex2_byteChars (b : Byte) : hex2 (hexChar (b.extractLsb' 4 4)) (hexChar (b.extractLsb' 0 4)) = b := by
  rw [hex2, hexval_hexChar, hexval_hexChar]; revert b; decide

end Sys2Proof
end

