-- ==== Sys2Proof/Laws/State.lean ====
section
/-! SUPPORT. One lemma per field and update of the state, so that no proof unfolds a record update. -/

namespace Sys2Proof.Machine

/-! ### respond -/

@[simp] theorem State.respond_cfg (r : Response) (s : State) : (s.respond r).cfg = s.cfg := rfl
@[simp] theorem State.respond_phase (r : Response) (s : State) : (s.respond r).phase = s.phase := rfl
@[simp] theorem State.respond_respLog (r : Response) (s : State) : (s.respond r).respLog = s.respLog ++ [r] := rfl
@[simp] theorem State.respond_pst (r : Response) (s : State) : (s.respond r).pst = s.pst := rfl
@[simp] theorem State.respond_tmr (r : Response) (s : State) : (s.respond r).tmr = s.tmr := rfl
@[simp] theorem State.respond_events (r : Response) (s : State) : (s.respond r).events = s.events := rfl
@[simp] theorem State.respond_refusals (r : Response) (s : State) : (s.respond r).refusals = s.refusals := rfl
@[simp] theorem State.respond_now (r : Response) (s : State) : (s.respond r).now = s.now := rfl
@[simp] theorem State.respond_fifo (r : Response) (s : State) : (s.respond r).fifo = s.fifo := rfl
@[simp] theorem State.respond_inputs (r : Response) (s : State) : (s.respond r).inputs = s.inputs := rfl

/-! ### emit -/

@[simp] theorem State.emit_cfg (e : PresenceEvent) (s : State) : (s.emit e).cfg = s.cfg := rfl
@[simp] theorem State.emit_phase (e : PresenceEvent) (s : State) : (s.emit e).phase = s.phase := rfl
@[simp] theorem State.emit_respLog (e : PresenceEvent) (s : State) : (s.emit e).respLog = s.respLog := rfl
@[simp] theorem State.emit_pst (e : PresenceEvent) (s : State) : (s.emit e).pst = s.pst := rfl
@[simp] theorem State.emit_tmr (e : PresenceEvent) (s : State) : (s.emit e).tmr = s.tmr := rfl
@[simp] theorem State.emit_events (e : PresenceEvent) (s : State) : (s.emit e).events = s.events ++ [e] := rfl
@[simp] theorem State.emit_refusals (e : PresenceEvent) (s : State) : (s.emit e).refusals = s.refusals := rfl
@[simp] theorem State.emit_now (e : PresenceEvent) (s : State) : (s.emit e).now = s.now := rfl
@[simp] theorem State.emit_fifo (e : PresenceEvent) (s : State) : (s.emit e).fifo = s.fifo := rfl
@[simp] theorem State.emit_inputs (e : PresenceEvent) (s : State) : (s.emit e).inputs = s.inputs := rfl

/-! ### refuse -/

@[simp] theorem State.refuse_cfg (r : RefusalReason) (s : State) : (s.refuse r).cfg = s.cfg := rfl
@[simp] theorem State.refuse_phase (r : RefusalReason) (s : State) : (s.refuse r).phase = s.phase := rfl
@[simp] theorem State.refuse_respLog (r : RefusalReason) (s : State) : (s.refuse r).respLog = s.respLog := rfl
@[simp] theorem State.refuse_pst (r : RefusalReason) (s : State) : (s.refuse r).pst = s.pst := rfl
@[simp] theorem State.refuse_tmr (r : RefusalReason) (s : State) : (s.refuse r).tmr = s.tmr := rfl
@[simp] theorem State.refuse_events (r : RefusalReason) (s : State) : (s.refuse r).events = s.events := rfl
@[simp] theorem State.refuse_refusals (r : RefusalReason) (s : State) : (s.refuse r).refusals = s.refusals ++ [r] := rfl
@[simp] theorem State.refuse_now (r : RefusalReason) (s : State) : (s.refuse r).now = s.now := rfl
@[simp] theorem State.refuse_fifo (r : RefusalReason) (s : State) : (s.refuse r).fifo = s.fifo := rfl
@[simp] theorem State.refuse_inputs (r : RefusalReason) (s : State) : (s.refuse r).inputs = s.inputs := rfl

/-! ### setPhase -/

@[simp] theorem State.setPhase_cfg (p : Phase) (s : State) : (s.setPhase p).cfg = s.cfg := rfl
@[simp] theorem State.setPhase_phase (p : Phase) (s : State) : (s.setPhase p).phase = p := rfl
@[simp] theorem State.setPhase_respLog (p : Phase) (s : State) : (s.setPhase p).respLog = s.respLog := rfl
@[simp] theorem State.setPhase_pst (p : Phase) (s : State) : (s.setPhase p).pst = s.pst := rfl
@[simp] theorem State.setPhase_tmr (p : Phase) (s : State) : (s.setPhase p).tmr = s.tmr := rfl
@[simp] theorem State.setPhase_events (p : Phase) (s : State) : (s.setPhase p).events = s.events := rfl
@[simp] theorem State.setPhase_refusals (p : Phase) (s : State) : (s.setPhase p).refusals = s.refusals := rfl
@[simp] theorem State.setPhase_now (p : Phase) (s : State) : (s.setPhase p).now = s.now := rfl
@[simp] theorem State.setPhase_fifo (p : Phase) (s : State) : (s.setPhase p).fifo = s.fifo := rfl
@[simp] theorem State.setPhase_inputs (p : Phase) (s : State) : (s.setPhase p).inputs = s.inputs := rfl

/-! ### setPst -/

@[simp] theorem State.setPst_cfg (p : PresenceState) (s : State) : (s.setPst p).cfg = s.cfg := rfl
@[simp] theorem State.setPst_phase (p : PresenceState) (s : State) : (s.setPst p).phase = s.phase := rfl
@[simp] theorem State.setPst_respLog (p : PresenceState) (s : State) : (s.setPst p).respLog = s.respLog := rfl
@[simp] theorem State.setPst_pst (p : PresenceState) (s : State) : (s.setPst p).pst = p := rfl
@[simp] theorem State.setPst_tmr (p : PresenceState) (s : State) : (s.setPst p).tmr = s.tmr := rfl
@[simp] theorem State.setPst_events (p : PresenceState) (s : State) : (s.setPst p).events = s.events := rfl
@[simp] theorem State.setPst_refusals (p : PresenceState) (s : State) : (s.setPst p).refusals = s.refusals := rfl
@[simp] theorem State.setPst_now (p : PresenceState) (s : State) : (s.setPst p).now = s.now := rfl
@[simp] theorem State.setPst_fifo (p : PresenceState) (s : State) : (s.setPst p).fifo = s.fifo := rfl
@[simp] theorem State.setPst_inputs (p : PresenceState) (s : State) : (s.setPst p).inputs = s.inputs := rfl

/-! ### schedule -/

@[simp] theorem State.schedule_cfg (t : Tag) (d : Ticks) (s : State) : (s.schedule t d).cfg = s.cfg := rfl
@[simp] theorem State.schedule_phase (t : Tag) (d : Ticks) (s : State) : (s.schedule t d).phase = s.phase := rfl
@[simp] theorem State.schedule_respLog (t : Tag) (d : Ticks) (s : State) : (s.schedule t d).respLog = s.respLog := rfl
@[simp] theorem State.schedule_pst (t : Tag) (d : Ticks) (s : State) : (s.schedule t d).pst = s.pst := rfl
@[simp] theorem State.schedule_tmr (t : Tag) (d : Ticks) (s : State) : (s.schedule t d).tmr = some ⟨t, d⟩ := rfl
@[simp] theorem State.schedule_events (t : Tag) (d : Ticks) (s : State) : (s.schedule t d).events = s.events := rfl
@[simp] theorem State.schedule_refusals (t : Tag) (d : Ticks) (s : State) : (s.schedule t d).refusals = s.refusals := rfl
@[simp] theorem State.schedule_now (t : Tag) (d : Ticks) (s : State) : (s.schedule t d).now = s.now := rfl
@[simp] theorem State.schedule_fifo (t : Tag) (d : Ticks) (s : State) : (s.schedule t d).fifo = s.fifo := rfl
@[simp] theorem State.schedule_inputs (t : Tag) (d : Ticks) (s : State) : (s.schedule t d).inputs = s.inputs := rfl

/-! ### cancel -/

@[simp] theorem State.cancel_cfg (s : State) : (s.cancel).cfg = s.cfg := rfl
@[simp] theorem State.cancel_phase (s : State) : (s.cancel).phase = s.phase := rfl
@[simp] theorem State.cancel_respLog (s : State) : (s.cancel).respLog = s.respLog := rfl
@[simp] theorem State.cancel_pst (s : State) : (s.cancel).pst = s.pst := rfl
@[simp] theorem State.cancel_tmr (s : State) : (s.cancel).tmr = none := rfl
@[simp] theorem State.cancel_events (s : State) : (s.cancel).events = s.events := rfl
@[simp] theorem State.cancel_refusals (s : State) : (s.cancel).refusals = s.refusals := rfl
@[simp] theorem State.cancel_now (s : State) : (s.cancel).now = s.now := rfl
@[simp] theorem State.cancel_fifo (s : State) : (s.cancel).fifo = s.fifo := rfl
@[simp] theorem State.cancel_inputs (s : State) : (s.cancel).inputs = s.inputs := rfl

/-! ### advance -/

@[simp] theorem State.advance_cfg (delta : Ticks) (s : State) : (s.advance delta).cfg = s.cfg := rfl
@[simp] theorem State.advance_phase (delta : Ticks) (s : State) : (s.advance delta).phase = s.phase := rfl
@[simp] theorem State.advance_respLog (delta : Ticks) (s : State) : (s.advance delta).respLog = s.respLog := rfl
@[simp] theorem State.advance_pst (delta : Ticks) (s : State) : (s.advance delta).pst = s.pst := rfl
@[simp] theorem State.advance_tmr (delta : Ticks) (s : State) : (s.advance delta).tmr = s.tmr := rfl
@[simp] theorem State.advance_events (delta : Ticks) (s : State) : (s.advance delta).events = s.events := rfl
@[simp] theorem State.advance_refusals (delta : Ticks) (s : State) : (s.advance delta).refusals = s.refusals := rfl
@[simp] theorem State.advance_now (delta : Ticks) (s : State) : (s.advance delta).now = s.now + delta := rfl
@[simp] theorem State.advance_fifo (delta : Ticks) (s : State) : (s.advance delta).fifo = s.fifo := rfl
@[simp] theorem State.advance_inputs (delta : Ticks) (s : State) : (s.advance delta).inputs = s.inputs := rfl

/-! ### latch -/

@[simp] theorem State.latch_cfg (p : Profile) (s : State) : (s.latch p).cfg = p := rfl
@[simp] theorem State.latch_phase (p : Profile) (s : State) : (s.latch p).phase = s.phase := rfl
@[simp] theorem State.latch_respLog (p : Profile) (s : State) : (s.latch p).respLog = s.respLog := rfl
@[simp] theorem State.latch_pst (p : Profile) (s : State) : (s.latch p).pst = s.pst := rfl
@[simp] theorem State.latch_tmr (p : Profile) (s : State) : (s.latch p).tmr = s.tmr := rfl
@[simp] theorem State.latch_events (p : Profile) (s : State) : (s.latch p).events = s.events := rfl
@[simp] theorem State.latch_refusals (p : Profile) (s : State) : (s.latch p).refusals = s.refusals := rfl
@[simp] theorem State.latch_now (p : Profile) (s : State) : (s.latch p).now = s.now := rfl
@[simp] theorem State.latch_fifo (p : Profile) (s : State) : (s.latch p).fifo = s.fifo := rfl
@[simp] theorem State.latch_inputs (p : Profile) (s : State) : (s.latch p).inputs = s.inputs := rfl

/-! ### arrive -/

@[simp] theorem State.arrive_cfg (b : Byte) (s : State) : (s.arrive b).cfg = s.cfg := rfl
@[simp] theorem State.arrive_phase (b : Byte) (s : State) : (s.arrive b).phase = s.phase := rfl
@[simp] theorem State.arrive_respLog (b : Byte) (s : State) : (s.arrive b).respLog = s.respLog := rfl
@[simp] theorem State.arrive_pst (b : Byte) (s : State) : (s.arrive b).pst = s.pst := rfl
@[simp] theorem State.arrive_tmr (b : Byte) (s : State) : (s.arrive b).tmr = s.tmr := rfl
@[simp] theorem State.arrive_events (b : Byte) (s : State) : (s.arrive b).events = s.events := rfl
@[simp] theorem State.arrive_refusals (b : Byte) (s : State) : (s.arrive b).refusals = s.refusals := rfl
@[simp] theorem State.arrive_now (b : Byte) (s : State) : (s.arrive b).now = s.now := rfl
@[simp] theorem State.arrive_fifo (b : Byte) (s : State) : (s.arrive b).fifo = s.fifo ++ [b] := rfl
@[simp] theorem State.arrive_inputs (b : Byte) (s : State) : (s.arrive b).inputs = s.inputs := rfl

/-! ### consume -/

@[simp] theorem State.consume_cfg (n : Nat) (s : State) : (s.consume n).cfg = s.cfg := rfl
@[simp] theorem State.consume_phase (n : Nat) (s : State) : (s.consume n).phase = s.phase := rfl
@[simp] theorem State.consume_respLog (n : Nat) (s : State) : (s.consume n).respLog = s.respLog := rfl
@[simp] theorem State.consume_pst (n : Nat) (s : State) : (s.consume n).pst = s.pst := rfl
@[simp] theorem State.consume_tmr (n : Nat) (s : State) : (s.consume n).tmr = s.tmr := rfl
@[simp] theorem State.consume_events (n : Nat) (s : State) : (s.consume n).events = s.events := rfl
@[simp] theorem State.consume_refusals (n : Nat) (s : State) : (s.consume n).refusals = s.refusals := rfl
@[simp] theorem State.consume_now (n : Nat) (s : State) : (s.consume n).now = s.now := rfl
@[simp] theorem State.consume_fifo (n : Nat) (s : State) : (s.consume n).fifo = s.fifo.drop n := rfl
@[simp] theorem State.consume_inputs (n : Nat) (s : State) : (s.consume n).inputs = s.inputs := rfl

/-! ### flush -/

@[simp] theorem State.flush_cfg (s : State) : (s.flush).cfg = s.cfg := rfl
@[simp] theorem State.flush_phase (s : State) : (s.flush).phase = s.phase := rfl
@[simp] theorem State.flush_respLog (s : State) : (s.flush).respLog = s.respLog := rfl
@[simp] theorem State.flush_pst (s : State) : (s.flush).pst = s.pst := rfl
@[simp] theorem State.flush_tmr (s : State) : (s.flush).tmr = s.tmr := rfl
@[simp] theorem State.flush_events (s : State) : (s.flush).events = s.events := rfl
@[simp] theorem State.flush_refusals (s : State) : (s.flush).refusals = s.refusals := rfl
@[simp] theorem State.flush_now (s : State) : (s.flush).now = s.now := rfl
@[simp] theorem State.flush_fifo (s : State) : (s.flush).fifo = [] := rfl
@[simp] theorem State.flush_inputs (s : State) : (s.flush).inputs = s.inputs := rfl

/-! ### endCall -/

@[simp] theorem State.endCall_cfg (st : Status) (t : Tag) (s : State) : (s.endCall st t).cfg = s.cfg := by cases h : st.isError <;> simp [State.endCall, h]
@[simp] theorem State.endCall_phase (st : Status) (t : Tag) (s : State) : (s.endCall st t).phase = .idle := rfl
@[simp] theorem State.endCall_respLog (st : Status) (t : Tag) (s : State) : (s.endCall st t).respLog = s.respLog ++ [.decodeResult st (st.tagField t)] := by cases h : st.isError <;> simp [State.endCall, h]
@[simp] theorem State.endCall_pst (st : Status) (t : Tag) (s : State) : (s.endCall st t).pst = s.pst := by cases h : st.isError <;> simp [State.endCall, h]
@[simp] theorem State.endCall_tmr (st : Status) (t : Tag) (s : State) : (s.endCall st t).tmr = s.tmr := by cases h : st.isError <;> simp [State.endCall, h]
@[simp] theorem State.endCall_events (st : Status) (t : Tag) (s : State) : (s.endCall st t).events = s.events := by cases h : st.isError <;> simp [State.endCall, h]
@[simp] theorem State.endCall_refusals (st : Status) (t : Tag) (s : State) : (s.endCall st t).refusals = s.refusals := by cases h : st.isError <;> simp [State.endCall, h]
@[simp] theorem State.endCall_now (st : Status) (t : Tag) (s : State) : (s.endCall st t).now = s.now := by cases h : st.isError <;> simp [State.endCall, h]
@[simp] theorem State.endCall_fifo (st : Status) (t : Tag) (s : State) : (s.endCall st t).fifo = if st.isError then [] else s.fifo := by cases h : st.isError <;> simp [State.endCall, h]
@[simp] theorem State.endCall_inputs (st : Status) (t : Tag) (s : State) : (s.endCall st t).inputs = s.inputs := by cases h : st.isError <;> simp [State.endCall, h]

/-! ### powerOn -/

@[simp] theorem State.powerOn_cfg (p : Profile) (fifo : List Byte) (now : Ticks) (inputs : List Input) :
    (State.powerOn p fifo now inputs).cfg = p := rfl
@[simp] theorem State.powerOn_phase (p : Profile) (fifo : List Byte) (now : Ticks) (inputs : List Input) :
    (State.powerOn p fifo now inputs).phase = .idle := rfl
@[simp] theorem State.powerOn_respLog (p : Profile) (fifo : List Byte) (now : Ticks) (inputs : List Input) :
    (State.powerOn p fifo now inputs).respLog = [] := rfl
@[simp] theorem State.powerOn_pst (p : Profile) (fifo : List Byte) (now : Ticks) (inputs : List Input) :
    (State.powerOn p fifo now inputs).pst = .absent := rfl
@[simp] theorem State.powerOn_tmr (p : Profile) (fifo : List Byte) (now : Ticks) (inputs : List Input) :
    (State.powerOn p fifo now inputs).tmr = none := rfl
@[simp] theorem State.powerOn_events (p : Profile) (fifo : List Byte) (now : Ticks) (inputs : List Input) :
    (State.powerOn p fifo now inputs).events = [] := rfl
@[simp] theorem State.powerOn_refusals (p : Profile) (fifo : List Byte) (now : Ticks) (inputs : List Input) :
    (State.powerOn p fifo now inputs).refusals = [] := rfl
@[simp] theorem State.powerOn_now (p : Profile) (fifo : List Byte) (now : Ticks) (inputs : List Input) :
    (State.powerOn p fifo now inputs).now = now := rfl
@[simp] theorem State.powerOn_fifo (p : Profile) (fifo : List Byte) (now : Ticks) (inputs : List Input) :
    (State.powerOn p fifo now inputs).fifo = fifo := rfl
@[simp] theorem State.powerOn_inputs (p : Profile) (fifo : List Byte) (now : Ticks) (inputs : List Input) :
    (State.powerOn p fifo now inputs).inputs = inputs := rfl

/-! ### withFetchWord -/

@[simp] theorem State.withFetchWord_inputs (s : State) (nbits w : Nat) :
    (s.withFetchWord nbits w).inputs = inputOfTableWord nbits w :: s.inputs := rfl

/-- Two states with equal fields are equal. -/
theorem State.ext_fields {s t : State} (h1 : s.cfg = t.cfg) (h2 : s.phase = t.phase) (h3 : s.respLog = t.respLog)
    (h4 : s.pst = t.pst) (h5 : s.tmr = t.tmr) (h6 : s.events = t.events) (h7 : s.refusals = t.refusals)
    (h8 : s.now = t.now) (h9 : s.fifo = t.fifo) (h10 : s.inputs = t.inputs) : s = t := by
  cases s; cases t; simp_all

end Sys2Proof.Machine
end

