-- ==== Sys2Proof/Laws/Ops.lean ====
section
/-! SUPPORT. What each shared operation and each meaning can do, said once: admissible answers, the end of a decode call,
fetching, the default checksum of `.frame`, one inversion lemma per meaning, and where a meaning faults. -/

namespace Sys2Proof.Machine

/-! ## Shared operations -/

@[simp] theorem Status.tagField_ok (t : Tag) : Status.ok.tagField t = t := rfl

theorem Status.tagField_of_ne_ok {st : Status} (h : st ≠ .ok) (t : Tag) : st.tagField t = 0 := by
  simp [Status.tagField, h]

/-- When START_ANSWER is enabled. -/
theorem State.startAnswerFault_eq_none {r : Option Byte} {s : State} :
    s.startAnswerFault r = none ↔
      s.phase = .waitStart ∧ r = s.fifo.head? ∧ (s.fifo = [] → s.cfg.primaryTimeout ≠ none) := by
  unfold State.startAnswerFault
  cases r <;> cases s.fifo <;> by_cases hp : s.phase = .waitStart <;> simp [hp]

/-- When BODY_ANSWER is enabled. -/
theorem State.bodyAnswerFault_eq_none {body : List Byte} {s : State} :
    s.bodyAnswerFault body = none ↔ s.phase = .waitBody ∧ body = s.bodyAnswerBytes := by
  unfold State.bodyAnswerFault
  by_cases hp : s.phase = .waitBody <;> simp [hp]

theorem State.startAnswerFault_eq_none_iff_admissible {r : Option Byte} {s : State} :
    s.startAnswerFault r = none ↔ s.StartAnswerAdmissible r := by
  rw [State.startAnswerFault_eq_none, State.StartAnswerAdmissible]
  cases r <;> cases hf : s.fifo <;> simp [eq_comm]

theorem State.bodyAnswerFault_eq_none_iff_admissible {body : List Byte} {s : State} :
    s.bodyAnswerFault body = none ↔ s.BodyAnswerAdmissible body := by
  rw [State.bodyAnswerFault_eq_none, State.BodyAnswerAdmissible, State.bodyAnswerBytes, Profile.bodyLength]
  refine and_congr_right fun _ => ⟨fun h => ?_, ?_⟩
  · rcases Nat.lt_or_ge s.fifo.length (s.cfg.frameLength - 1) with hk | hk
    · exact ⟨_, by rw [h, List.take_length, List.take_of_length_le (by omega)], .inr ⟨rfl, hk⟩⟩
    · exact ⟨_, h, .inl ⟨rfl, hk⟩⟩
  · rintro ⟨k, h, ⟨rfl, _⟩ | ⟨rfl, hk⟩⟩
    · exact h
    · rw [h, List.take_length, List.take_of_length_le (by omega)]

theorem State.fetch_nil {s : State} (h : s.inputs = []) : s.fetch = none := by simp [State.fetch, h]

theorem State.fetch_cons {s : State} {x : Input} {rest : List Input} (h : s.inputs = x :: rest) :
    s.fetch = some (x, { s with inputs := rest }) := by simp [State.fetch, h]

/-- A refused input transaction leaves its reason and nothing else. -/
theorem applyInput_error {x : Input} {r : RefusalReason} {s : State} (h : decode x = .error r) :
    applyInput x s = .next (s.refuse r) := by simp [applyInput, h]

theorem applyInput_ok {x : Input} {i : Instr} {s : State} (h : decode x = .ok i) : applyInput x s = exec i s := by
  simp [applyInput, h]

/-! ## One inversion lemma per meaning: what a next state is -/

theorem execDecode_next {s t : State} (h : execDecode s = .next t) :
    s.phase = .idle ∧ t = s.setPhase .waitStart ∨ s.phase ≠ .idle ∧ t = s.refuse .decodeBusy := by
  unfold execDecode at h
  split at h
  · exact .inl ⟨‹_›, by simpa using h.symm⟩
  · exact .inr ⟨‹_›, by simpa using h.symm⟩

theorem execVerify_next {p : List Byte} {c0 c1 : Byte} {s t : State} (h : execVerify p c0 c1 s = .next t) :
    (allHex p && isHex c0 && isHex c1) = true ∧ t = s.respond (.verifyResult (xor5 p == hex2 c0 c1)) ∨
      (allHex p && isHex c0 && isHex c1) = false ∧ t = s.refuse .verifyNonhex := by
  unfold execVerify at h
  split at h
  · exact .inl ⟨‹_›, by simpa using h.symm⟩
  · exact .inr ⟨Bool.eq_false_iff.mpr ‹_›, by simpa using h.symm⟩

theorem execStartAnswer_next {r : Option Byte} {s t : State} (h : execStartAnswer r s = .next t) :
    s.startAnswerFault r = none ∧
      (r = none ∧ t = s.endCall .noData 0 ∨
        r = some stx ∧ t = (s.consume 1).setPhase .waitBody ∨
        ∃ b, r = some b ∧ b ≠ stx ∧ t = (s.consume 1).endCall .badStart 0) := by
  unfold execStartAnswer at h
  split at h
  · cases h
  · refine ⟨‹_›, ?_⟩
    split at h
    · exact .inl ⟨rfl, by simpa using h.symm⟩
    · split at h
      · exact .inr (.inl ⟨by simp [*], by simpa using h.symm⟩)
      · exact .inr (.inr ⟨_, rfl, ‹_›, by simpa using h.symm⟩)

theorem execBodyAnswer_next {body : List Byte} {s t : State} (h : execBodyAnswer body s = .next t) :
    s.bodyAnswerFault body = none ∧
      t = (s.consume body.length).endCall (frameStatus s.cfg body) (hex10 (payloadSlice body)) := by
  unfold execBodyAnswer at h
  split at h
  · cases h
  · exact ⟨‹_›, by simpa using h.symm⟩

theorem execRawEnter_next {t2 : Tag} {s u : State} (h : execRawEnter t2 s = .next u) :
    s.pst = .absent ∧ u = (s.setPst (.present t2)).emit (.enter t2) ∨
    s.pst = .present t2 ∧ u = s.setPst (.present t2) ∨
    (∃ t, s.pst = .present t ∧ t2 ≠ t ∧ u = (s.setPst (.present t2)).emit (.enter t2)) ∨
    (∃ d, s.pst = .debouncing t2 d ∧ u = s.cancel.setPst (.present t2)) ∨
    ∃ t d, s.pst = .debouncing t d ∧ t2 ≠ t ∧
      u = ((s.cancel.setPst (.present t2)).emit (.leave t)).emit (.enter t2) := by
  unfold execRawEnter at h
  split at h
  · exact .inl ⟨‹_›, by simpa using h.symm⟩
  · split at h
    · subst t2; exact .inr (.inl ⟨‹_›, by simpa using h.symm⟩)
    · exact .inr (.inr (.inl ⟨_, ‹_›, ‹_›, by simpa using h.symm⟩))
  · split at h
    · subst t2; exact .inr (.inr (.inr (.inl ⟨_, ‹_›, by simpa using h.symm⟩)))
    · exact .inr (.inr (.inr (.inr ⟨_, _, ‹_›, ‹_›, by simpa using h.symm⟩)))

theorem execRawLeave_next {s u : State} (h : execRawLeave s = .next u) :
    (∃ t, s.pst = .present t ∧
      u = (s.setPst (.debouncing t (s.now + s.cfg.grace))).schedule t (s.now + s.cfg.grace)) ∨
    (∀ t, s.pst ≠ .present t) ∧ u = s := by
  unfold execRawLeave at h
  split at h
  · exact .inr ⟨by simp [*], by simpa using h.symm⟩
  · exact .inl ⟨_, ‹_›, by simpa using h.symm⟩
  · exact .inr ⟨by simp [*], by simpa using h.symm⟩

theorem execGraceExpired_next {t : Tag} {d : Ticks} {s u : State} (h : execGraceExpired t d s = .next u) :
    s.FireEnabled t d ∧ s.pst = .debouncing t d ∧ u = (s.cancel.setPst .absent).emit (.leave t) ∨
    s.FireEnabled t d ∧ s.pst ≠ .debouncing t d ∧ u = s.cancel ∨
    s.tmr ≠ some ⟨t, d⟩ ∧ s.pst ≠ .debouncing t d ∧ u = s := by
  unfold execGraceExpired at h
  split at h
  · split at h
    · split at h
      · exact .inl ⟨⟨‹_›, ‹_›⟩, ‹_›, by simpa using h.symm⟩
      · exact .inr (.inl ⟨⟨‹_›, ‹_›⟩, ‹_›, by simpa using h.symm⟩)
    · cases h
  · split at h
    · cases h
    · exact .inr (.inr ⟨‹_›, ‹_›, by simpa using h.symm⟩)

theorem execByteArrive_next {b : Byte} {s u : State} (h : execByteArrive b s = .next u) : u = s.arrive b := by
  simpa [execByteArrive] using h.symm

theorem execTimeAdvance_next {delta : BitVec 64} {s u : State} (h : execTimeAdvance delta s = .next u) :
    u = s.advance delta.toNat := by
  simpa [execTimeAdvance] using h.symm

theorem execReset_next {p : Profile} {s u : State} (h : execReset p s = .next u) :
    u = (((s.latch p).setPhase .idle).setPst .absent).cancel := by
  simpa [execReset] using h.symm

/-! ## Where a meaning faults: only the answers and the fire, and only when they are not enabled -/

theorem execStartAnswer_fault {r : Option Byte} {s : State} {f : Fault} (h : execStartAnswer r s = .fault f) :
    s.startAnswerFault r = some f := by
  unfold execStartAnswer at h
  split at h
  · cases h; assumption
  · (repeat' split at h) <;> cases h

theorem execBodyAnswer_fault {body : List Byte} {s : State} {f : Fault} (h : execBodyAnswer body s = .fault f) :
    s.bodyAnswerFault body = some f := by
  unfold execBodyAnswer at h
  split at h
  · cases h; assumption
  · cases h

theorem execGraceExpired_fault {t : Tag} {d : Ticks} {s : State} {f : Fault} (h : execGraceExpired t d s = .fault f) :
    s.tmr = some ⟨t, d⟩ ∧ s.now < d ∧ f = .deadlineNotReached ∨
      s.tmr ≠ some ⟨t, d⟩ ∧ s.pst = .debouncing t d ∧ f = .timerNotLive := by
  unfold execGraceExpired at h
  split at h
  · split at h
    · split at h <;> cases h
    · exact .inl ⟨‹_›, Nat.lt_of_not_le ‹_›, by simpa using h.symm⟩
  · split at h
    · exact .inr ⟨‹_›, ‹_›, by simpa using h.symm⟩
    · cases h

/-! ## The default checksum of `.frame` -/

theorem frameChecksum_of_allHex {payload : List Byte} (h : allHex payload = true) :
    frameChecksum payload = xor5 payload := by simp [frameChecksum, h]

@[simp] theorem frameChecksum_tagChars (t : Tag) : frameChecksum (tagChars t) = xor5 (tagChars t) :=
  frameChecksum_of_allHex (allHex_tagChars t)

/-! ## Time -/

/-- Diverging time (R260) reaches every deadline, the premise of the confirmed leave (R196). -/
theorem TimeDiverges.reaches_deadline {σ : Nat → State} (h : TimeDiverges σ) :
    ∃ n, (σ 0).now + (σ 0).cfg.grace ≤ (σ n).now := h _

/-! ## What a step can do -/

/-- A next state of `step`: a wait, a refused word, or the meaning of the next instruction. -/
theorem step_next {s t : State} (h : step s = .next t) :
    s.inputs = [] ∧ t = s ∨
    ∃ x rest, s.inputs = x :: rest ∧
      ((∃ r, decode x = .error r ∧ t = { s with inputs := rest }.refuse r) ∨
        ∃ i, decode x = .ok i ∧ exec i { s with inputs := rest } = .next t) := by
  unfold step State.fetch at h
  cases hin : s.inputs with
  | nil => simp [hin] at h; exact .inl ⟨rfl, h.symm⟩
  | cons x rest =>
    refine .inr ⟨x, rest, rfl, ?_⟩
    simp only [hin] at h
    cases hd : decode x with
    | error r => rw [applyInput_error hd] at h; exact .inl ⟨r, rfl, by simpa using h.symm⟩
    | ok i => rw [applyInput_ok hd] at h; exact .inr ⟨i, rfl, h⟩

/-- A fault of `step`: the fault of the meaning of the next instruction. -/
theorem step_fault {s : State} {f : Fault} (h : step s = .fault f) :
    ∃ x rest i, s.inputs = x :: rest ∧ decode x = .ok i ∧ exec i { s with inputs := rest } = .fault f := by
  unfold step State.fetch at h
  cases hin : s.inputs with
  | nil => simp [hin] at h
  | cons x rest =>
    simp only [hin] at h
    cases hd : decode x with
    | error r => rw [applyInput_error hd] at h; cases h
    | ok i => rw [applyInput_ok hd] at h; exact ⟨x, rest, i, rfl, hd, h⟩

/-- No meaning answers a refusal of the host's interface: the spec's refusals are next states. -/
theorem exec_ne_refused (i : Instr) (s : State) (r : Refusal) : exec i s ≠ .refused r := by
  cases i <;>
    simp only [exec, execDecode, execVerify, execRawEnter, execRawLeave, execTimeAdvance, execByteArrive,
      execStartAnswer, execBodyAnswer, execGraceExpired, execReset] <;>
    (repeat' split) <;> simp

end Sys2Proof.Machine
end

