-- ==== Sys2Proof/Laws/Pack.lean ====
section
/-! SUPPORT. Packing digits into a word, first digit most significant: payloads into tags (R88) and the characters of VERIFY
into its operand (R96). -/

namespace Sys2Proof

/-- Bit `j` of a left-to-right packing of `n`-bit digits: it belongs to digit `length - 1 - j / n`. -/
theorem packFold_getLsbD {α : Type} {n W : Nat} (f : α → BitVec n) (hn : 0 < n) (l : List α) (d : α) :
    ∀ j, j < W → n * l.length ≤ W →
    (l.foldl (fun (acc : BitVec W) c => acc <<< n ||| (f c).setWidth W) (0#W)).getLsbD j =
      (decide (j < n * l.length) && (f (l.getD (l.length - 1 - j / n) d)).getLsbD (j % n)) := by
  induction l using List.reverseRecOn with
  | nil => intro j; simp
  | append_singleton l c ih =>
    intro j hj hW
    simp only [List.foldl_append, List.foldl_cons, List.foldl_nil, List.length_append, List.length_singleton, Nat.mul_add, Nat.mul_one] at hW ⊢
    rw [BitVec.getLsbD_or, BitVec.getLsbD_shiftLeft, BitVec.getLsbD_setWidth]
    by_cases hjn : j < n
    · have h0 : j / n = 0 := Nat.div_eq_of_lt hjn
      have hm : j % n = j := Nat.mod_eq_of_lt hjn
      simp [hjn, h0, hm, hj, show j < n * l.length + n by omega]
    · have hge : n ≤ j := by omega
      have hd : j / n = (j - n) / n + 1 := by
        rw [← Nat.sub_add_cancel hge, Nat.add_div_right _ hn]; simp
      have hm : j % n = (j - n) % n := by
        conv_lhs => rw [← Nat.sub_add_cancel hge]
        simp
      rw [ih (j - n) (by omega) (by omega)]
      have hf : (f c).getLsbD j = false := BitVec.getLsbD_of_ge _ _ hge
      simp only [hf, hj, hjn, hd, hm]
      by_cases hlt : j - n < n * l.length
      · have hk : (j - n) / n < l.length := Nat.div_lt_of_lt_mul hlt
        generalize (j - n) / n = q at hk ⊢
        have e : l.length + 1 - 1 - (q + 1) = l.length - 1 - q := by omega
        have e3 : l.length - 1 - q < l.length := by omega
        rw [e, List.getD_append _ _ _ _ e3]
        have hj2 : j < n * l.length + n := by omega
        simp only [hlt, hj2, decide_true, Bool.true_and, Bool.and_true, Bool.or_false, Bool.not_false, decide_false]
      · simp [hlt, show ¬ j < n * l.length + n by omega]

/-- Digit `i` of a left-to-right packing, the first one most significant. -/
theorem packFold_extract {α : Type} {n W : Nat} (f : α → BitVec n) (hn : 0 < n) (l : List α) (d : α) (i : Nat)
    (hi : i < l.length) (hW : n * l.length ≤ W) :
    (l.foldl (fun (acc : BitVec W) c => acc <<< n ||| (f c).setWidth W) (0#W)).extractLsb' (n * (l.length - 1 - i)) n =
      f (l.getD i d) := by
  apply BitVec.eq_of_getLsbD_eq
  intro k hk
  have hlt : n * (l.length - 1 - i) + k < n * l.length := by
    have : n * (l.length - 1 - i) + n ≤ n * l.length := by
      rw [← Nat.mul_succ]; exact Nat.mul_le_mul_left _ (by omega)
    omega
  rw [BitVec.getLsbD_extractLsb', packFold_getLsbD f hn l d _ (by omega) hW]
  have h1 : (n * (l.length - 1 - i) + k) / n = l.length - 1 - i := by
    rw [Nat.mul_add_div hn, Nat.div_eq_of_lt hk, Nat.add_zero]
  have h2 : (n * (l.length - 1 - i) + k) % n = k := by
    rw [Nat.mul_add_mod, Nat.mod_eq_of_lt hk]
  rw [h1, h2, show l.length - 1 - (l.length - 1 - i) = i by omega]
  simp [hk, hlt]

/-- Character `i` of VERIFY's operand, the checksum characters being the last two (R96). -/
theorem verifyOperand_extract {p : List Byte} (h : p.length = 10) (c0 c1 : Byte) (i : Nat) (hi : i < 12) :
    (verifyOperand p c0 c1).extractLsb' (8 * (11 - i)) 8 = (p ++ [c0, c1]).getD i 0 := by
  have := packFold_extract (n := 8) (W := 96) id (by omega) (p ++ [c0, c1]) (0 : Byte) i (by simp [h]; omega) (by simp [h])
  simp only [List.length_append, List.length_cons, List.length_nil, h, id] at this
  exact this

/-- Digit `i` of a parsed payload (R64). -/
theorem hex10_digit {s : List Byte} (h : s.length = 10) (i : Nat) (hi : i < 10) :
    (hex10 s).extractLsb' (4 * (9 - i)) 4 = hexval (s.getD i 0) := by
  have := packFold_extract (n := 4) (W := 40) hexval (by omega) s (0 : Byte) i (by omega) (by omega)
  rw [h] at this
  exact this

/-- Two tags with equal digits are equal. -/
theorem tag_eq_of_digits {t u : Tag} (h : ∀ i, i < 10 → t.extractLsb' (4 * (9 - i)) 4 = u.extractLsb' (4 * (9 - i)) 4) :
    t = u := by
  apply BitVec.eq_of_getLsbD_eq
  intro j hj
  have hd := congrArg (fun x => x.getLsbD (j % 4)) (h (9 - j / 4) (by omega))
  have e : 4 * (9 - (9 - j / 4)) + j % 4 = j := by omega
  simp only [BitVec.getLsbD_extractLsb', e] at hd
  simpa [show j % 4 < 4 by omega] using hd

/-- Parsing the characters of a tag gives it back (R130). -/
@[simp] theorem hex10_tagChars (t : Tag) : hex10 (tagChars t) = t := by
  apply tag_eq_of_digits
  intro i hi
  rw [hex10_digit (by simp) i hi, show 4 * (9 - i) = 36 - 4 * i by omega]
  simp [tagChars, hi]

end Sys2Proof
end

