-- ==== Sys2Proof/Laws/PerInstr.lean ====
section
/-! SUPPORT. One lemma per instruction about its syntax: the family `TableCode` says that the encoding of an instruction
carries the code of its row of spec/opcode_table.json, and a clear reserved field. -/

namespace Sys2Proof

theorem opField_commandWord (op : BitVec 8) (opnd : BitVec 96) : opField (commandWord op opnd) = op := by
  apply BitVec.eq_of_getLsbD_eq
  intro i hi
  have h1 : 120 + i < 128 := by omega
  have h2 : opnd.getLsbD (120 + i) = false := BitVec.getLsbD_of_ge _ _ (by omega)
  simp [opField, commandWord, hi, h1, h2]

theorem rsvField_commandWord (op : BitVec 8) (opnd : BitVec 96) : rsvField (commandWord op opnd) = 0 := by
  apply BitVec.eq_of_getLsbD_eq
  intro i hi
  simp [rsvField, commandWord, hi]
  grind

theorem opndField_commandWord (op : BitVec 8) (opnd : BitVec 96) : opndField (commandWord op opnd) = opnd := by
  apply BitVec.eq_of_getLsbD_eq
  intro i hi
  have h1 : i < 128 := by omega
  have h2 : i < 120 := by omega
  simp [opndField, commandWord, hi, h1, h2]

/-- The code of an instruction's row: the opcode of a command word or the code of an event (R97, R99). -/
def Laws.rowCode : Instr → BitVec 8
  | .decode => 0x01#8
  | .verify _ _ _ => 0x02#8
  | .rawEnter _ => 0x10#8
  | .rawLeave => 0x11#8
  | .timeAdvance _ => 0x20#8
  | .byteArrive _ => 0x80#8
  | .startAnswer _ => 0x81#8
  | .bodyAnswer _ => 0x82#8
  | .graceExpired _ _ => 0x83#8
  | .reset _ => 0x84#8

namespace Laws.TableCode

/-- The encoding carries the code of the row. -/
def Statement (i : Instr) : Prop :=
  match encode i with
  | .command w => opField w = Laws.rowCode i ∧ rsvField w = 0
  | .event e => e.code = Laws.rowCode i

theorem decode : Statement .decode := ⟨opField_commandWord _ _, rsvField_commandWord _ _⟩

theorem verify (p : List Byte) (c0 c1 : Byte) : Statement (.verify p c0 c1) :=
  ⟨opField_commandWord _ _, rsvField_commandWord _ _⟩

theorem rawEnter (t : Tag) : Statement (.rawEnter t) := ⟨opField_commandWord _ _, rsvField_commandWord _ _⟩

theorem rawLeave : Statement .rawLeave := ⟨opField_commandWord _ _, rsvField_commandWord _ _⟩

theorem timeAdvance (delta : BitVec 64) : Statement (.timeAdvance delta) :=
  ⟨opField_commandWord _ _, rsvField_commandWord _ _⟩

theorem byteArrive (b : Byte) : Statement (.byteArrive b) := rfl

theorem startAnswer (r : Option Byte) : Statement (.startAnswer r) := rfl

theorem bodyAnswer (body : List Byte) : Statement (.bodyAnswer body) := rfl

theorem graceExpired (t : Tag) (d : Ticks) : Statement (.graceExpired t d) := rfl

theorem reset (p : Profile) : Statement (.reset p) := rfl

end Laws.TableCode

end Sys2Proof
end

