-- ==== Sys2Proof/Tests/Slice0.lean ====
section
/-! SUPPORT. The model's own tests, each on one step with its expected result from spec/95_test_vectors.md, the smoke test of
WellFormed, and one witness per statement that has hypotheses. -/

namespace Sys2Proof.Tests

open Sys2Proof Sys2Proof.Machine

/-! ## Helpers -/

/-- The configuration of the spec's vectors, `(ID, 1, 100, 30, 50)`. -/
def cfgId : Profile := ⟨.id, true, some 100, 30, 50⟩

/-- The RDM configuration without checksum and without primary timeout, `(RDM, 0, none, 30, 50)` (program P5). -/
def cfgRdm : Profile := ⟨.rdm, false, none, 30, 50⟩

/-- After power-on with `now = 100` and an empty buffer. -/
def base : State := .powerOn cfgId [] 100 []

/-- The decoder in a phase with the given bytes buffered. -/
def decoderAt (cfg : Profile) (phase : Phase) (fifo : List Byte) : State := { base with cfg := cfg, phase := phase, fifo := fifo }

/-- The debouncer in a state with the timer that belongs to it, after the events that led there. -/
def debouncerAt (pst : PresenceState) (events : List PresenceEvent) (now : Ticks) : State :=
  { base with pst := pst, tmr := pst.timer?, events := events, now := now }

/-- The next state of an outcome, `none` for a fault or a refusal. -/
def next? : Host.Outcome State Fault Refusal → Option State
  | .next s => some s
  | .fault _ => none
  | .refused _ => none

/-- The fault of an outcome, if it is one. -/
def fault? : Host.Outcome State Fault Refusal → Option Fault
  | .next _ => none
  | .fault f => some f
  | .refused _ => none

theorem of_next? {o : Host.Outcome State Fault Refusal} {s : State} (h : next? o = some s) : o = .next s := by
  cases o <;> simp_all [next?]

/-- `"1A0047B3C9"` -/
def chars1A : List Byte := [0x31, 0x41, 0x30, 0x30, 0x34, 0x37, 0x42, 0x33, 0x43, 0x39]

/-- The body of the good ID frame of DV8: payload, `"27"`, CR LF ETX. -/
def body1A : List Byte := chars1A ++ [0x32, 0x37, 0x0D, 0x0A, 0x03]

/-- The payload of XV9, `"1B0147B3C9"`. -/
def chars1B : List Byte := [0x31, 0x42, 0x30, 0x31, 0x34, 0x37, 0x42, 0x33, 0x43, 0x39]

/-! ## WellFormed smoke test -/

theorem test_wellFormed_refuses_short_payload : (Instr.verify (chars1A.take 9) 0x32 0x37).wellFormed = false := by decide

theorem test_wellFormed_refuses_long_payload : (Instr.verify (0x30 :: chars1A) 0x32 0x37).wellFormed = false := by decide

theorem test_wellFormed_accepts_payload : (Instr.verify chars1A 0x32 0x37).wellFormed = true := by decide

/-! ## Decoding: words written out from the spec's encodings -/

theorem test_decode_DECODE : decodeCommand 0x01000000000000000000000000000000#128 = .ok .decode := by decide

theorem test_decode_VERIFY_VV1 :
    decodeCommand 0x02000000314130303437423343393237#128 = .ok (.verify chars1A 0x32 0x37) := by decide

theorem test_decode_RAW_ENTER_P1 :
    decodeCommand 0x10000000000000000000001A0047B3C9#128 = .ok (.rawEnter 0x1A0047B3C9#40) := by decide

theorem test_decode_RAW_LEAVE : decodeCommand 0x11000000000000000000000000000000#128 = .ok .rawLeave := by decide

theorem test_decode_TIME_ADVANCE_TV3 :
    decodeCommand 0x2000000000000000FFFFFFFFFFFFFFFF#128 = .ok (.timeAdvance 0xFFFFFFFFFFFFFFFF#64) := by decide

theorem test_decode_events :
    decode (.event (.byteArrive 0x31)) = .ok (.byteArrive 0x31) ∧
    decode (.event (.startAnswer none)) = .ok (.startAnswer none) ∧
    decode (.event (.bodyAnswer [0x31, 0x32])) = .ok (.bodyAnswer [0x31, 0x32]) ∧
    decode (.event (.graceExpired 42 150)) = .ok (.graceExpired 42 150) ∧
    decode (.event (.reset cfgRdm)) = .ok (.reset cfgRdm) := by decide

theorem test_decode_refusals_RF1_RF6 :
    decodeCommand 0x03000000000000000000000000000000#128 = .error .illegalOpcode ∧
    decodeCommand 0x80000000000000000000000000000000#128 = .error .illegalOpcode ∧
    decodeCommand 0xFF000000000000000000000000000000#128 = .error .illegalOpcode ∧
    decodeCommand 0x01000001000000000000000000000000#128 = .error .reservedBits ∧
    decodeCommand 0x01000000000000000000000000000001#128 = .error .reservedBits ∧
    decodeCommand 0x03000001000000000000000000000000#128 = .error .illegalOpcode := by decide

theorem test_decode_reserved_EN9_EV6_TV5 :
    decodeCommand 0x1000000000000000000001000000002A#128 = .error .reservedBits ∧
    decodeCommand 0x11000000000000000000000000000001#128 = .error .reservedBits ∧
    decodeCommand 0x20000000000000010000000000000000#128 = .error .reservedBits := by decide

theorem test_encode_VERIFY_VV1 :
    encode (.verify chars1A 0x32 0x37) = .command 0x02000000314130303437423343393237#128 := by decide

theorem test_table_event_codes :
    decodeTableWord 8 0x80 = some (.byteArrive 0) ∧ decodeTableWord 8 0x81 = some (.startAnswer none) ∧
    decodeTableWord 8 0x82 = some (.bodyAnswer []) ∧ decodeTableWord 8 0x83 = some (.graceExpired 0 0) ∧
    decodeTableWord 8 0x84 = some (.reset ⟨.id, false, none, 0, 0⟩) := by decide

theorem test_fetchWord_runs_DECODE :
    (next? (step (State.reset.withFetchWord 128 0x01000000000000000000000000000000))).map State.phase = some .waitStart := by
  decide

/-! ## Hexadecimal helpers and the checksum (HV, XV) -/

theorem test_hex2_HV3 : hex2 0x32 0x37 = 0x27 ∧ hex2 0x32 0x61 = 0x2A ∧ hex2 0x46 0x46 = 0xFF := by decide

theorem test_isHex_HV2 : [0x2F, 0x3A, 0x40, 0x47, 0x60, 0x67, 0x02, 0x20, 0x78].map isHex = List.replicate 9 false := by decide

theorem test_hex10_HV4 : hex10 chars1A = 0x1A0047B3C9 := by decide

theorem test_xor5_XV1_XV9 : xor5 chars1A = 0x27 ∧ xor5 chars1B = 0x27 := by decide

theorem test_tagChars_P1 : tagChars 0x1A0047B3C9 = chars1A ∧ byteChars 0x27 = [0x32, 0x37] := by decide

/-! ## Codes (VV, DV, EN) -/

theorem test_response_words :
    (Response.verifyResult true).word = 0x0200000000000001 ∧
    (Response.decodeResult .ok 0x1A0047B3C9).word = 0x0100001A0047B3C9 ∧
    (Response.decodeResult .checksum 0).word = 0x0105000000000000 := by decide

theorem test_event_records_EN5 :
    (PresenceEvent.leave 42).record = 0x020000000000002A ∧ (PresenceEvent.enter 7).record = 0x0100000000000007 := by decide

/-! ## One step of each instruction -/

theorem test_DECODE_DV1 : (next? (exec .decode base)).map State.phase = some .waitStart := by decide

theorem test_DECODE_busy_DV26 :
    next? (exec .decode (decoderAt cfgId .waitBody [0x31])) =
      some { decoderAt cfgId .waitBody [0x31] with refusals := [.decodeBusy] } := by decide

theorem test_START_ANSWER_bad_start_DV2 :
    (next? (exec (.startAnswer (some 0x30)) (decoderAt cfgId .waitStart (0x30 :: 0x02 :: body1A)))).map
      (fun s => (s.phase, s.fifo, s.respLog)) = some (.idle, [], [.decodeResult .badStart 0]) := by decide

theorem test_START_ANSWER_marker_DV5 :
    (next? (exec (.startAnswer (some 0x02)) (decoderAt cfgId .waitStart [0x02, 0x31]))).map
      (fun s => (s.phase, s.fifo, s.pendingRequest)) = some (.waitBody, [0x31], some (.readN 15 30)) := by decide

theorem test_BODY_ANSWER_ok_DV9 :
    (next? (exec (.bodyAnswer body1A) (decoderAt cfgId .waitBody (body1A ++ [0x02, 0x31])))).map
      (fun s => (s.phase, s.fifo, s.respLog)) =
      some (.idle, [0x02, 0x31], [.decodeResult .ok 0x1A0047B3C9]) := by decide

theorem test_BODY_ANSWER_nonhex_checksum_DV15 :
    (next? (exec (.bodyAnswer (chars1A ++ [0x32, 0x47, 0x0D, 0x0A, 0x03]))
      (decoderAt cfgId .waitBody (chars1A ++ [0x32, 0x47, 0x0D, 0x0A, 0x03])))).map
      (fun s => (s.fifo, s.respLog)) = some ([], [.decodeResult .checksum 0]) := by decide

theorem test_VERIFY_VV1_VV2 :
    (next? (exec (.verify chars1A 0x32 0x37) base)).map State.respLog = some [.verifyResult true] ∧
    (next? (exec (.verify chars1A 0x32 0x38) base)).map State.respLog = some [.verifyResult false] := by decide

theorem test_VERIFY_nonhex_VV9 :
    next? (exec (.verify chars1A 0x32 0x20) base) = some { base with refusals := [.verifyNonhex] } := by decide

theorem test_RAW_ENTER_EN3 :
    (next? (exec (.rawEnter 7) (debouncerAt (.present 42) [.enter 42] 100))).map (fun s => (s.pst, s.events)) =
      some (.present 7, [.enter 42, .enter 7]) := by decide

theorem test_RAW_ENTER_EN5 :
    (next? (exec (.rawEnter 7) (debouncerAt (.debouncing 42 150) [.enter 42] 100))).map
      (fun s => (s.pst, s.tmr, s.events)) = some (.present 7, none, [.enter 42, .leave 42, .enter 7]) := by decide

theorem test_RAW_LEAVE_EV5 :
    (next? (exec .rawLeave { debouncerAt (.present 42) [.enter 42] (2 ^ 64) with cfg := { cfgId with grace := 2 ^ 64 } })).map
      (fun s => (s.pst, s.tmr)) = some (.debouncing 42 (2 ^ 65), some ⟨42, 2 ^ 65⟩) := by decide

theorem test_RAW_LEAVE_EV4 :
    next? (exec .rawLeave (debouncerAt (.debouncing 42 150) [.enter 42] 120)) =
      some (debouncerAt (.debouncing 42 150) [.enter 42] 120) := by decide

theorem test_GRACE_EXPIRED_GV1_GV2 :
    fault? (exec (.graceExpired 42 150) (debouncerAt (.debouncing 42 150) [.enter 42] 149)) = some .deadlineNotReached ∧
    (next? (exec (.graceExpired 42 150) (debouncerAt (.debouncing 42 150) [.enter 42] 150))).map
      (fun s => (s.pst, s.tmr, s.events)) = some (.absent, none, [.enter 42, .leave 42]) := by decide

theorem test_GRACE_EXPIRED_GV5 :
    (next? (exec (.graceExpired 42 150)
      { debouncerAt (.debouncing 42 300) [.enter 42] 200 with tmr := some ⟨42, 150⟩ })).map
      (fun s => (s.pst, s.tmr, s.events)) = some (.debouncing 42 300, none, [.enter 42]) := by decide

theorem test_TIME_ADVANCE_TV4 :
    (next? (exec (.timeAdvance 1) { base with now := 18446744073709551615 })).map State.now =
      some 18446744073709551616 := by decide

theorem test_BYTE_ARRIVE : (next? (exec (.byteArrive 0x31) { base with fifo := [0x02] })).map State.fifo = some [0x02, 0x31] := by
  decide

theorem test_RESET_RV2 :
    next? (exec (.reset ⟨.rdm, false, none, 30, 10⟩)
      { base with
        pst := .present 7, phase := .waitBody, events := [.enter 7], respLog := [.decodeResult .ok 7], fifo := [0x31] }) =
      some { base with
        cfg := ⟨.rdm, false, none, 30, 10⟩, events := [.enter 7], respLog := [.decodeResult .ok 7], fifo := [0x31] } := by
  decide

/-! ## The assembler's statements -/

theorem test_ANSWER_not_enabled_DV4 : (decoderAt cfgRdm .waitStart []).answer? = none := by decide

theorem test_frame_P3 :
    frameBytes .rdm [0x30, 0x30, 0x30, 0x30, 0x30, 0x30, 0x30, 0x30, 0x32, 0x41] none none =
      some [0x02, 0x30, 0x30, 0x30, 0x30, 0x30, 0x30, 0x30, 0x30, 0x32, 0x41, 0x32, 0x41, 0x03] := by decide

/-- With the checksum omitted a payload that is not all hexadecimal still expands (log 21), to the frame's 16 bytes. -/
theorem test_frame_nonhex_payload_expands :
    (frameBytes .id (0x47 :: chars1A.drop 1) none none).map List.length = some 16 := rfl

theorem test_FIRE_not_enabled_GV1 :
    Stmt.inputs (debouncerAt (.debouncing 42 150) [.enter 42] 149) .fire = none ∧
    Stmt.inputs (debouncerAt (.debouncing 42 150) [.enter 42] 150) .fire = some [encode (.graceExpired 42 150)] := by decide

/-! ## Witnesses: for each statement with hypotheses, a concrete state and operands that meet them -/

theorem witness_DecodeInvertsEncode : (Instr.verify chars1A 0x32 0x37).wellFormed = true := by decide

theorem witness_EncodeInvertsDecode :
    decode (.command 0x1000000000000000000000FFFFFFFFFF#128) = .ok (.rawEnter 0xFFFFFFFFFF#40) := by decide

/-- Clauses of CommandWordsRefusedOrDecoded: no assigned opcode (also with a reserved bit set), an assigned one with a
reserved bit set, an assigned one without. -/
theorem witness_CommandWordsRefusedOrDecoded :
    (∃ w, ¬AssignedOpcode (opField w)) ∧
    (∃ w, AssignedOpcode (opField w) ∧ ReservedBitSet w) ∧
    (∃ w, AssignedOpcode (opField w) ∧ ¬ReservedBitSet w) :=
  ⟨⟨0x03000001000000000000000000000000#128, by unfold AssignedOpcode; decide⟩,
   ⟨0x1000000000000000000001000000002A#128, by unfold AssignedOpcode; decide, by unfold ReservedBitSet; decide⟩,
   ⟨0x1000000000000000000000FFFFFFFFFF#128, by unfold AssignedOpcode; decide, by unfold ReservedBitSet; decide⟩⟩

theorem witness_StepRunsDecodedInput :
    (base.withFetchWord 128 0x11000000000000000000000000000000).inputs = [encode .rawLeave] ∧
    decode (encode .rawLeave) = .ok .rawLeave ∧ base.inputs = [] := by decide

theorem witness_HexAlphabetAndValues :
    (0x30 ≤ (0x39#8 : Byte).toNat ∧ (0x39#8 : Byte).toNat ≤ 0x39) ∧
    (0x41 ≤ (0x46#8 : Byte).toNat ∧ (0x46#8 : Byte).toNat ≤ 0x46) ∧
    (0x61 ≤ (0x66#8 : Byte).toNat ∧ (0x66#8 : Byte).toNat ≤ 0x66) := by decide

theorem witness_HexParsingIsPositional :
    isHex 0x66 = true ∧ isHex 0x39 = true ∧ chars1A.length = 10 ∧ allHex chars1A = true := by decide

theorem witness_TagBitsAreDigits : chars1A.length = 10 ∧ allHex chars1A = true := by decide

/-- `"1a0047b3c9"` and `"1A0047B3C9"`: equal tags, different characters; and a permutation of groups. -/
theorem witness_ChecksumDependsOnTagBytes :
    let lower : List Byte := [0x31, 0x61, 0x30, 0x30, 0x34, 0x37, 0x62, 0x33, 0x63, 0x39]
    lower.length = 10 ∧ chars1A.length = 10 ∧ allHex lower = true ∧ allHex chars1A = true ∧
      hex10 lower = hex10 chars1A ∧ lower ≠ chars1A ∧
      [((0x31 : Byte), (0x41 : Byte)), (0x30, 0x30)].Perm [(0x30, 0x30), (0x31, 0x41)] := by
  refine ⟨by decide, by decide, by decide, by decide, by decide, by decide, List.Perm.swap _ _ _⟩

theorem witness_VerifyAnswersOrRefuses :
    (∀ b ∈ chars1A ++ [0x32, 0x37], isHex b = true) ∧ (∃ b ∈ chars1A ++ [0x32, 0x20], isHex b = false) := by decide

/-- The digit `'F'` has another value than either checksum character of `"1A0047B3C9"`; the digits `'2'`, `'7'` the same. -/
theorem witness_VerifySoundAndDigitSensitive :
    chars1A.length = 10 ∧ allHex chars1A = true ∧ isHex 0x46 = true ∧ isHex 0x32 = true ∧ isHex 0x37 = true ∧
      hexval 0x46 ≠ hexval (hexChar ((xor5 chars1A).extractLsb' 4 4)) ∧
      hexval 0x46 ≠ hexval (hexChar ((xor5 chars1A).extractLsb' 0 4)) ∧
      hexval 0x32 = hexval (hexChar ((xor5 chars1A).extractLsb' 4 4)) ∧
      hexval 0x37 = hexval (hexChar ((xor5 chars1A).extractLsb' 0 4)) := by decide

theorem witness_DecoderAgreesWithVerify :
    let s := decoderAt cfgId .waitBody body1A
    let u := decoderAt { cfgId with checksumEnabled := false } .waitBody body1A
    (s.phase = .waitBody ∧ body1A = s.fifo.take s.cfg.bodyLength ∧ body1A.length = s.cfg.bodyLength ∧
      allHex (body1A.take 10) = true ∧ s.cfg.checksumEnabled = true ∧ isHex (body1A.getD 10 0) = true ∧
      isHex (body1A.getD 11 0) = true) ∧
    (u.phase = .waitBody ∧ body1A = u.fifo.take u.cfg.bodyLength ∧ body1A.length = u.cfg.bodyLength ∧
      u.cfg.checksumEnabled = false) := by decide

/-- The corruption of DV23: groups 0 and 1, mask 1. -/
theorem witness_EqualMasksGoUndetected :
    chars1A.length = 10 ∧ chars1B.length = 10 ∧ allHex chars1A = true ∧ allHex chars1B = true ∧ (1 : Byte) ≠ 0 ∧
      ∀ g, g < 5 → hex2 (chars1B.getD (2 * g) 0) (chars1B.getD (2 * g + 1) 0) =
        hex2 (chars1A.getD (2 * g) 0) (chars1A.getD (2 * g + 1) 0) ^^^ (if g = 0 ∨ g = 1 then 1 else 0) := by decide

theorem witness_DecodeStartsOneCall : base.phase = .idle ∧ (decoderAt cfgId .waitStart []).phase ≠ .idle := by decide

theorem witness_StartAnswerResults :
    let s := decoderAt cfgId .waitStart []
    let t := decoderAt cfgId .waitStart [0x02]
    let u := decoderAt cfgId .waitStart [0x03, 0x02]
    (s.phase = .waitStart ∧ s.fifo = [] ∧ s.cfg.primaryTimeout ≠ none) ∧
    (t.phase = .waitStart ∧ t.fifo = 0x02#8 :: []) ∧
    (u.phase = .waitStart ∧ u.fifo = 0x03#8 :: [0x02#8] ∧ (0x03#8 : Byte) ≠ 0x02#8) := by decide

/-- Each clause of BodyAnswerResults: 14 of 15 bytes; a payload with `'G'`; a wrong checksum; a good one; and the RDM
frame without checksum. -/
theorem witness_BodyAnswerResults :
    let short := decoderAt cfgId .waitBody (body1A.take 14)
    let nonhex := decoderAt cfgId .waitBody (0x47 :: body1A.drop 1)
    let wrong := decoderAt cfgId .waitBody (chars1A ++ [0x32, 0x38, 0x0D, 0x0A, 0x03])
    let good := decoderAt cfgId .waitBody body1A
    let rdm := decoderAt cfgRdm .waitBody (chars1A ++ [0x5A, 0x5A, 0x02])
    short.fifo.length < short.cfg.frameLength - 1 ∧
    (nonhex.cfg.frameLength - 1 ≤ nonhex.fifo.length ∧ ¬∀ b ∈ nonhex.fifo.take 10, isHex b = true) ∧
    (wrong.cfg.frameLength - 1 ≤ wrong.fifo.length ∧ (∀ b ∈ wrong.fifo.take 10, isHex b = true) ∧
      wrong.cfg.checksumEnabled = true ∧
      ¬(isHex (wrong.fifo.getD 10 0) = true ∧ isHex (wrong.fifo.getD 11 0) = true ∧
        xor5 (wrong.fifo.take 10) = hex2 (wrong.fifo.getD 10 0) (wrong.fifo.getD 11 0))) ∧
    (good.cfg.frameLength - 1 ≤ good.fifo.length ∧ (∀ b ∈ good.fifo.take 10, isHex b = true) ∧
      isHex (good.fifo.getD 10 0) = true ∧ isHex (good.fifo.getD 11 0) = true ∧
      xor5 (good.fifo.take 10) = hex2 (good.fifo.getD 10 0) (good.fifo.getD 11 0)) ∧
    (rdm.cfg.frameLength - 1 ≤ rdm.fifo.length ∧ (∀ b ∈ rdm.fifo.take 10, isHex b = true) ∧
      rdm.cfg.checksumEnabled = false) := by decide

theorem witness_InadmissibleAnswersStop :
    base.phase ≠ .waitStart ∧ base.phase ≠ .waitBody ∧
    (decoderAt cfgId .waitStart [0x41]).fifo ≠ [] ∧
    ((decoderAt cfgRdm .waitStart []).fifo = [] ∧ (decoderAt cfgRdm .waitStart []).cfg.primaryTimeout = none) ∧
    (decoderAt cfgId .waitStart [0x41]).fifo.head? ≠ some 0x42#8 ∧
    ([0x31, 0x41, 0x30, 0x30, 0x34] : List Byte) ≠ (decoderAt cfgId .waitBody (chars1A.take 7)).fifo.take 15 := by decide

/-- Each clause of FlushExactlyOnError: an error, `NODATA`, `OK`. -/
theorem witness_FlushExactlyOnError :
    let bad := decoderAt cfgId .waitStart [0x30, 0x02]
    let none' := decoderAt cfgId .waitStart []
    let good := decoderAt cfgId .waitBody (body1A ++ [0x02])
    (next? (exec (.startAnswer (some 0x30)) bad)).map State.respLog = some (bad.respLog ++ [.decodeResult .badStart 0]) ∧
    (next? (exec (.startAnswer none) none')).map State.respLog = some (none'.respLog ++ [.decodeResult .noData 0]) ∧
    (next? (exec (.bodyAnswer body1A) good)).map State.respLog =
      some (good.respLog ++ [.decodeResult .ok 0x1A0047B3C9]) := by decide

theorem witness_ArrivalAfterFlushIsFirst :
    let s := decoderAt cfgId .waitStart [0x30]
    (next? (exec (.startAnswer (some 0x30)) (s.arrive 0x02))).map State.respLog =
      some (s.respLog ++ [.decodeResult .badStart 0]) ∧ Status.badStart.isError = true ∧
    ((execAll [.startAnswer (some 0x30), .byteArrive 0x41, .decode, .startAnswer (some 0x41)] (s.arrive 0x02)).map
      State.fifo) = some [] := by decide

theorem witness_PhaseChangesFollowTable :
    (next? (exec .decode base)).map State.phase = some .waitStart ∧ base.phase ≠ .waitStart := by decide

theorem witness_CallEndsWithOneResult :
    (next? (exec (.startAnswer none) (decoderAt cfgId .waitStart []))).map State.phase = some .idle ∧
      ∀ p, Instr.startAnswer none ≠ .reset p := by
  refine ⟨by decide, by simp⟩

theorem witness_NoDecodeErrorIsFatal :
    (next? (exec (.bodyAnswer []) (decoderAt cfgId .waitBody []))).map State.respLog =
      some [.decodeResult .incomplete 0] := by decide

/-- Equal payload and checksum characters with other trailers; and with the checksum disabled, other checksum characters. -/
theorem witness_TrailerIsNotExamined :
    let other := chars1A ++ [0x32, 0x37, 0x02, 0xFF, 0x00]
    let unchecked := chars1A ++ [0x5A, 0x5A, 0x02, 0xFF, 0x00]
    body1A.length = cfgId.frameLength - 1 ∧ other.length = cfgId.frameLength - 1 ∧
      body1A.take 12 = other.take 12 ∧ body1A ≠ other ∧
    unchecked.length = cfgId.frameLength - 1 ∧ body1A.take 10 = unchecked.take 10 ∧
      (decoderAt { cfgId with checksumEnabled := false } .waitBody []).cfg.checksumEnabled = false ∧
      (decoderAt cfgId .waitBody []).phase = .waitBody := by decide

theorem witness_DecodeOfTagFrameIsTag :
    let s := decoderAt cfgId .idle (0x02 :: body1A ++ [0x02])
    s.phase = .idle ∧ ([0x0D, 0x0A, 0x03] : List Byte).length = s.cfg.frameLength - 13 ∧
      s.fifo = 0x02#8 :: (tagChars 0x1A0047B3C9 ++ byteChars (xor5 (tagChars 0x1A0047B3C9)) ++ [0x0D, 0x0A, 0x03]) ++ [0x02] := by
  decide

theorem witness_WaitIsLiftedByArrival :
    let s := decoderAt cfgRdm .waitStart []
    s.phase = .waitStart ∧ s.cfg.primaryTimeout = none ∧ s.fifo = [] := by decide

/-- A run whose call ends with `BAD_START`: the answer, then leave edges that change nothing. -/
theorem witness_FairDecodeCallEnds :
    ∃ (run : Nat → State) (moves : Nat → Instr), IsRun run moves ∧ ByteSourceFair run moves ∧
      (∀ n p, moves n ≠ .reset p) ∧ (run 0).phase ≠ .idle ∧ (run 0).cfg.primaryTimeout ≠ none ∧ (run 0).fifo ≠ [] := by
  let s0 := decoderAt cfgId .waitStart [0x41]
  let s1 := (s0.consume 1).endCall .badStart 0
  refine ⟨fun n => match n with | 0 => s0 | _ + 1 => s1, fun n => match n with | 0 => .startAnswer (some 0x41) | _ + 1 => .rawLeave,
    ?_, ?_, ?_, by decide, by decide, by decide⟩
  · intro n
    cases n with
    | zero => exact of_next? (by decide)
    | succ n => rfl
  · intro n h
    rcases h (n + 1) (by omega) with h | ⟨h, _⟩ <;> cases h
  · intro n p
    cases n <;> simp

theorem witness_RawEnterResults :
    base.pst = .absent ∧ (debouncerAt (.present 42) [.enter 42] 100).pst = .present 42 ∧ (7 : Tag) ≠ 42 ∧
      (debouncerAt (.debouncing 42 150) [.enter 42] 100).pst = .debouncing 42 150 := by decide

theorem witness_RawLeaveResults :
    base.pst = .absent ∧ (debouncerAt (.present 42) [.enter 42] 100).pst = .present 42 ∧
      (debouncerAt (.debouncing 42 150) [.enter 42] 100).pst = .debouncing 42 150 := by decide

/-- The boundary `now = d`, with a matching and with another identity (GV2, GV5). -/
theorem witness_GraceExpiredResults :
    let s := debouncerAt (.debouncing 42 150) [.enter 42] 150
    let u := { debouncerAt (.debouncing 42 300) [.enter 42] 150 with tmr := some ⟨42, 150⟩ }
    (s.tmr = some ⟨42, 150⟩ ∧ 150 ≤ s.now ∧ s.pst = .debouncing 42 150) ∧
    (u.tmr = some ⟨42, 150⟩ ∧ 150 ≤ u.now ∧ u.pst ≠ .debouncing 42 150) := by decide

theorem witness_StaleFireChangesNothing :
    (debouncerAt (.present 42) [.enter 42] 100).pst ≠ .debouncing 42 150 ∧
      (debouncerAt (.present 42) [.enter 42] 100).TimerInv := ⟨by decide, rfl⟩

/-- The boundary: enabled at `now = d`, not at `now = d - 1` (GV1, GV2). -/
theorem witness_FireEnabledFromDeadline :
    let s := debouncerAt (.debouncing 42 150) [.enter 42] 150
    let u := debouncerAt (.debouncing 42 150) [.enter 42] 149
    (s.TimerInv ∧ s.tmr = some ⟨42, 150⟩ ∧ 150 ≤ s.now) ∧ (u.TimerInv ∧ u.tmr = some ⟨42, 150⟩ ∧ u.now < 150) :=
  ⟨⟨rfl, rfl, by decide⟩, rfl, rfl, by decide⟩

/-- A reachable state that is debouncing, by two edges from power-on. -/
theorem witness_reachable_debouncing :
    ∃ s, Reachable s ∧ s.pst = .debouncing 42 150 ∧ s.tmr = some ⟨42, 150⟩ :=
  ⟨_, .step (.step (.powerOn cfgId [] 100 [encode (.rawEnter 42), encode .rawLeave])
      (of_next? (s := { base with pst := .present 42, events := [.enter 42], inputs := [encode .rawLeave] }) (by decide)))
      (of_next? (s := debouncerAt (.debouncing 42 150) [.enter 42] 100) (by decide)), rfl, rfl⟩

/-- A state with the invariant whose step is the confirmed leave. -/
theorem witness_InvariantKeptByStep :
    ∃ s t : State, s.Inv ∧ step s = .next t ∧ t.pst = .absent ∧ s.pst = .debouncing 42 150 := by
  refine ⟨{ debouncerAt (.debouncing 42 150) [.enter 42] 150 with inputs := [encode (.graceExpired 42 150)] },
    debouncerAt .absent [.enter 42, .leave 42] 150, ⟨rfl, ?_, ?_, ?_⟩, of_next? (by decide), rfl, rfl⟩
  · intro t h; cases h; rfl
  · intro n t h
    rcases n with _ | n <;> simp [debouncerAt] at h
  · intro st t h; cases h

/-- EventLogShape: a reset followed by an edge of entry, and a present tag replaced by another. -/
theorem witness_EventLogShape :
    (execAll [.reset cfgRdm, .rawEnter 7] (debouncerAt (.present 42) [.enter 42] 100)).map State.events =
      some [.enter 42, .enter 7] ∧
    (debouncerAt (.present 42) [.enter 42] 100).pst = .present 42 ∧ (7 : Tag) ≠ 42 := by decide

theorem witness_PresentStaysOrDebounces :
    (next? (exec .rawLeave (debouncerAt (.present 42) [.enter 42] 100))).map State.pst = some (.debouncing 42 150) ∧
    (next? (exec (.reset cfgRdm) (debouncerAt (.present 42) [.enter 42] 100))).map State.pst = some .absent := by decide

theorem witness_TwoEventsOnlyOnTagSwitch :
    let s := debouncerAt (.debouncing 42 150) [.enter 42] 100
    (next? (exec (.rawEnter 7) s)).map (fun u => u.events.length) = some (s.events.length + 2) := by decide

/-- The flicker of program P6: time passes to one tick before the deadline, and a VERIFY and a second leave come between. -/
theorem witness_FlickerIsAbsorbed :
    let s := debouncerAt (.present 42) [.enter 42] 100
    let moves := [Instr.timeAdvance 49, .rawLeave, .verify chars1A 0x32 0x37]
    s.pst = .present 42 ∧ s.tmr = none ∧ (∀ i ∈ moves, (∀ t2, i ≠ .rawEnter t2) ∧ ∀ p, i ≠ .reset p) ∧
      ∃ u, execAll (.rawLeave :: moves) s = some u ∧ u.now < s.now + s.cfg.grace := by
  refine ⟨rfl, rfl, by simp, _, rfl, by decide⟩

/-- A run with grace 50: leave, time passes to the deadline and no further, fire, and then leave edges that change nothing. -/
theorem witness_ConfirmedLeaveIsEmittedOnce :
    ∃ (run : Nat → State) (moves : Nat → Instr), IsRun run moves ∧ TimerFair run moves ∧
      (∃ n, (run 0).now + (run 0).cfg.grace ≤ (run n).now) ∧
      (run 0).pst = .present 42 ∧ (run 0).tmr = none ∧ moves 0 = .rawLeave ∧
      ∀ n, (∀ t2, moves n ≠ .rawEnter t2) ∧ ∀ p, moves n ≠ .reset p := by
  refine ⟨fun n => match n with
      | 0 => debouncerAt (.present 42) [.enter 42] 100
      | 1 => debouncerAt (.debouncing 42 150) [.enter 42] 100
      | 2 => debouncerAt (.debouncing 42 150) [.enter 42] 150
      | _ + 3 => debouncerAt .absent [.enter 42, .leave 42] 150,
    fun n => match n with
      | 0 => .rawLeave
      | 1 => .timeAdvance 50
      | 2 => .graceExpired 42 150
      | _ + 3 => .rawLeave,
    ?_, ?_, ⟨2, by decide⟩, rfl, rfl, rfl, ?_⟩
  · intro n
    match n with
    | 0 => rfl
    | 1 => rfl
    | 2 => rfl
    | n + 3 => rfl
  · intro n t d h
    have := (h (n + 3) (by omega)).1
    cases this
  · intro n
    match n with
    | 0 => simp
    | 1 => simp
    | 2 => simp
    | n + 3 => simp

theorem witness_TagSwitchWhileDebouncing :
    let s := debouncerAt (.present 1) [.enter 1] 100
    let moves := [Instr.timeAdvance 10, .decode]
    s.pst = .present 1 ∧ s.tmr = none ∧ (2 : Tag) ≠ 1 ∧
      (∀ i ∈ moves, (∀ t, i ≠ .rawEnter t) ∧ (∀ p, i ≠ .reset p) ∧ ∀ t d, i ≠ .graceExpired t d) ∧
      ∃ u, execAll (.rawLeave :: moves) s = some u := by
  refine ⟨rfl, rfl, by decide, by simp, _, rfl⟩

theorem witness_DeadlineRaceHasBothOrders :
    let s := debouncerAt (.debouncing 42 150) [.enter 42] 150
    s.pst = .debouncing 42 150 ∧ s.tmr = some ⟨42, 150⟩ ∧ 150 ≤ s.now := by decide

/-- WritersOfEachField, DebouncerStepsFrame: a step that writes `pst`, `tmr` and `events`. -/
theorem witness_WritersOfEachField :
    let s := debouncerAt (.debouncing 42 150) [.enter 42] 150
    (next? (exec (.graceExpired 42 150) s)).map (fun t => (t.pst, t.tmr, t.events)) =
      some (.absent, none, [.enter 42, .leave 42]) ∧ (Instr.graceExpired 42 150).isDebouncerStep = true := by decide

/-- DecoderStepsFrame: each clause has a step that completes. -/
theorem witness_DecoderStepsFrame :
    (next? (exec (.startAnswer none) (decoderAt cfgId .waitStart []))).isSome = true ∧
    (Instr.startAnswer none).isDecoderStep = true ∧ (Instr.startAnswer none).isAnswer = true ∧
    (next? (exec .decode base)).isSome = true ∧ (next? (exec (.verify chars1A 0x32 0x37) base)).isSome = true := by decide

/-- DecoderAndDebouncerCommute: both steps complete; one faults; the other faults. -/
theorem witness_DecoderAndDebouncerCommute :
    let s := { debouncerAt (.present 42) [.enter 42] 100 with phase := .waitStart }
    let u := { debouncerAt (.debouncing 42 150) [.enter 42] 100 with phase := .waitStart }
    (next? (exec (.startAnswer none) s)).isSome = true ∧ (next? (exec .rawLeave s)).isSome = true ∧
    fault? (exec (.bodyAnswer []) s) = some .noBodyRequest ∧
    fault? (exec (.graceExpired 42 150) u) = some .deadlineNotReached ∧
    (next? (exec (.startAnswer none) u)).isSome = true := by decide

theorem witness_LogsOnlyGrow :
    (next? (step { base with inputs := [encode (.rawEnter 42)] })).map State.events = some (base.events ++ [.enter 42]) := by
  decide

/-- RefusalChangesNothingElse, RefusalReasonsAsListed: the four reasons. -/
theorem witness_RefusalReasonsAsListed :
    (next? (step { base with inputs := [.command 0x03000000000000000000000000000000#128] })).map State.refusals =
      some [.illegalOpcode] ∧
    (next? (step { base with inputs := [.command 0x01000000000000000000000000000001#128] })).map State.refusals =
      some [.reservedBits] ∧
    (next? (step { base with phase := .waitStart, inputs := [encode .decode] })).map State.refusals = some [.decodeBusy] ∧
    (next? (step { base with inputs := [encode (.verify chars1A 0x32 0x20)] })).map State.refusals =
      some [.verifyNonhex] := by decide

/-- StopsOnlyOnStepsNotEnabled: a fault from each of the three instructions, the fire one tick before its deadline. -/
theorem witness_StopsOnlyOnStepsNotEnabled :
    fault? (step { base with inputs := [encode (.bodyAnswer [])] }) = some .noBodyRequest ∧
    fault? (step { decoderAt cfgId .waitStart [0x41] with inputs := [encode (.startAnswer (some 0x42))] }) =
      some .startAnswerNotHead ∧
    fault? (step { debouncerAt (.debouncing 42 150) [.enter 42] 149 with inputs := [encode (.graceExpired 42 150)] }) =
      some .deadlineNotReached ∧
    base.TimerInv :=
  ⟨by decide, by decide, by decide, rfl⟩

/-- Each clause of FrameStatementExpansion: the fixed lengths of both kinds, a hexadecimal payload, one that is not, and a
line that expands. -/
theorem witness_FrameStatementExpansion :
    (chars1A.length = 10 ∧ ([0x32, 0x37] : List Byte).length = 2 ∧
      ([0x02, 0xFF, 0x00] : List Byte).length = (if ReaderKind.id = .id then 3 else 1) ∧
      ([0x03] : List Byte).length = (if ReaderKind.rdm = .id then 3 else 1)) ∧
    allHex chars1A = true ∧ allHex (0x47 :: chars1A.drop 1) = false ∧
    (frameBytes .id chars1A (some [0x32, 0x37]) (some [0x02, 0xFF, 0x00])).isSome = true := by decide

end Sys2Proof.Tests
end

/-! ## Scope: what one step runs -/

namespace Sys2Proof.Machine

/-- With nothing scheduled the block waits (R286, R312). -/
theorem step_nil {s : State} (h : s.inputs = []) : step s = .next s := by
  simp [step, State.fetch_nil h]

/-- The head of the schedule is applied to the state without it. -/
theorem step_cons {s : State} {x : Input} {rest : List Input} (h : s.inputs = x :: rest) :
    step s = applyInput x { s with inputs := rest } := by
  simp [step, State.fetch_cons h]

/-- Settles O6: the head of the schedule is fetched, then applied as the instruction it decodes to; an empty schedule is
a wait. -/
theorem stepRunsDecodedInput : Obligations.StepRunsDecodedInput :=
  ⟨fun _ _ _ _ hinputs hdecode => (step_cons hinputs).trans (applyInput_ok hdecode), fun _ => step_nil⟩

end Sys2Proof.Machine

/-! ## State: which fields each instruction writes, the machine's invariant, and RESET -/

namespace Sys2Proof

theorem Instr.isDecoderStep_of_isAnswer {i : Instr} (h : i.isAnswer = true) : i.isDecoderStep = true := by
  cases i <;> simp_all [Instr.isAnswer, Instr.isDecoderStep]

theorem Profile.frameLength_eq (p : Profile) : p.frameLength = if p.kind = .id then 16 else 14 := by
  unfold Profile.frameLength
  cases p.kind <;> rfl

end Sys2Proof

namespace Sys2Proof.Machine

/-! ### What an instruction writes -/

theorem State.endCall_eq (st : Status) (t : Tag) (s : State) :
    s.endCall st t = { s with
      phase := .idle
      fifo := if st.isError then [] else s.fifo
      respLog := s.respLog ++ [.decodeResult st (st.tagField t)] } := by
  apply State.ext_fields <;> simp

/-- DECODE writes the phase and the refusal log, to which it appends. -/
theorem execDecode_writes {s t : State} (h : execDecode s = .next t) :
    ∃ phase reasons, t = { s with phase := phase, refusals := s.refusals ++ reasons } := by
  obtain ⟨-, rfl⟩ | ⟨-, rfl⟩ := execDecode_next h
  · exact ⟨.waitStart, [], by simp [State.setPhase]⟩
  · exact ⟨s.phase, [.decodeBusy], rfl⟩

/-- VERIFY writes the response log and the refusal log, to which it appends. -/
theorem execVerify_writes {p : List Byte} {c0 c1 : Byte} {s t : State} (h : execVerify p c0 c1 s = .next t) :
    ∃ responses reasons, t = { s with
      respLog := s.respLog ++ responses, refusals := s.refusals ++ reasons } := by
  obtain ⟨-, rfl⟩ | ⟨-, rfl⟩ := execVerify_next h
  · exact ⟨[.verifyResult (xor5 p == hex2 c0 c1)], [], by simp [State.respond]⟩
  · exact ⟨[], [.verifyNonhex], by simp [State.refuse]⟩

/-- An answer of the ByteSource writes the phase, the buffer and the response log, to which it appends. -/
theorem exec_answer_writes {i : Instr} (hi : i.isAnswer = true) {s t : State} (h : exec i s = .next t) :
    ∃ phase fifo responses, t = { s with
      phase := phase, fifo := fifo, respLog := s.respLog ++ responses } := by
  cases i with
  | startAnswer r =>
    obtain ⟨-, ⟨-, rfl⟩ | ⟨-, rfl⟩ | ⟨b, -, -, rfl⟩⟩ := execStartAnswer_next h
    · exact ⟨_, _, _, State.endCall_eq ..⟩
    · exact ⟨.waitBody, s.fifo.drop 1, [], by simp [State.setPhase, State.consume]⟩
    · exact ⟨_, _, _, State.endCall_eq ..⟩
  | bodyAnswer body =>
    obtain ⟨-, rfl⟩ := execBodyAnswer_next h
    exact ⟨_, _, _, State.endCall_eq ..⟩
  | _ => cases hi

/-- A step of the debouncer writes the presence state, the timer and the event log, to which it appends. -/
theorem exec_debouncer_writes {i : Instr} (hi : i.isDebouncerStep = true) {s t : State} (h : exec i s = .next t) :
    ∃ pst tmr emitted, t = { s with pst := pst, tmr := tmr, events := s.events ++ emitted } := by
  cases i with
  | rawEnter t2 =>
    obtain ⟨-, rfl⟩ | ⟨-, rfl⟩ | ⟨t1, -, -, rfl⟩ | ⟨d, -, rfl⟩ | ⟨t1, d, -, -, rfl⟩ := execRawEnter_next h
    · exact ⟨_, _, [.enter t2], rfl⟩
    · exact ⟨.present t2, s.tmr, [], by simp [State.setPst]⟩
    · exact ⟨_, _, [.enter t2], rfl⟩
    · exact ⟨.present t2, none, [], by simp [State.setPst, State.cancel]⟩
    · exact ⟨.present t2, none, [.leave t1, .enter t2], by simp [State.emit, State.setPst, State.cancel]⟩
  | rawLeave =>
    obtain ⟨t1, -, rfl⟩ | ⟨-, rfl⟩ := execRawLeave_next h
    · exact ⟨.debouncing t1 (s.now + s.cfg.grace), some ⟨t1, s.now + s.cfg.grace⟩, [],
        by simp [State.schedule, State.setPst]⟩
    · exact ⟨t.pst, t.tmr, [], by simp⟩
  | graceExpired t1 d =>
    obtain ⟨-, -, rfl⟩ | ⟨-, -, rfl⟩ | ⟨-, -, rfl⟩ := execGraceExpired_next h
    · exact ⟨_, _, [.leave t1], rfl⟩
    · exact ⟨s.pst, none, [], by simp [State.cancel]⟩
    · exact ⟨t.pst, t.tmr, [], by simp⟩
  | _ => cases hi

/-- Every instruction by the unit that takes it, with the fields the unit writes; the logs are appended to. -/
theorem exec_writes {i : Instr} {s t : State} (h : exec i s = .next t) :
    (i = .decode ∧ ∃ phase reasons, t = { s with phase := phase, refusals := s.refusals ++ reasons }) ∨
    ((∃ p c0 c1, i = .verify p c0 c1) ∧ ∃ responses reasons, t = { s with
      respLog := s.respLog ++ responses, refusals := s.refusals ++ reasons }) ∨
    (i.isAnswer = true ∧ ∃ phase fifo responses, t = { s with
      phase := phase, fifo := fifo, respLog := s.respLog ++ responses }) ∨
    (i.isDebouncerStep = true ∧ ∃ pst tmr emitted, t = { s with
      pst := pst, tmr := tmr, events := s.events ++ emitted }) ∨
    (∃ b, i = .byteArrive b ∧ t = s.arrive b) ∨
    (∃ delta, i = .timeAdvance delta ∧ t = s.advance delta.toNat) ∨
    ∃ p, i = .reset p ∧ t = (((s.latch p).setPhase .idle).setPst .absent).cancel := by
  cases i with
  | decode => exact .inl ⟨rfl, execDecode_writes h⟩
  | verify p c0 c1 => exact .inr (.inl ⟨⟨p, c0, c1, rfl⟩, execVerify_writes h⟩)
  | startAnswer r => exact .inr (.inr (.inl ⟨rfl, exec_answer_writes rfl h⟩))
  | bodyAnswer body => exact .inr (.inr (.inl ⟨rfl, exec_answer_writes rfl h⟩))
  | rawEnter t2 => exact .inr (.inr (.inr (.inl ⟨rfl, exec_debouncer_writes rfl h⟩)))
  | rawLeave => exact .inr (.inr (.inr (.inl ⟨rfl, exec_debouncer_writes rfl h⟩)))
  | graceExpired t1 d => exact .inr (.inr (.inr (.inl ⟨rfl, exec_debouncer_writes rfl h⟩)))
  | byteArrive b => exact .inr (.inr (.inr (.inr (.inl ⟨b, rfl, execByteArrive_next h⟩))))
  | timeAdvance delta => exact .inr (.inr (.inr (.inr (.inr (.inl ⟨delta, rfl, execTimeAdvance_next h⟩)))))
  | reset p => exact .inr (.inr (.inr (.inr (.inr (.inr ⟨p, rfl, execReset_next h⟩)))))

/-- Settles O49: a field that an instruction's unit does not write keeps its value. -/
theorem writersOfEachField : Obligations.WritersOfEachField := by
  intro i s t h
  obtain ⟨rfl, phase, reasons, rfl⟩ | ⟨⟨p, c0, c1, rfl⟩, responses, reasons, rfl⟩ |
    ⟨hi, phase, fifo, responses, rfl⟩ | ⟨hi, pst, tmr, emitted, rfl⟩ | ⟨b, rfl, rfl⟩ | ⟨delta, rfl, rfl⟩ |
    ⟨p, rfl, rfl⟩ := exec_writes h
  · simp [Instr.isDecoderStep]
  · simp
  · simp [hi, Instr.isDecoderStep_of_isAnswer hi]
  · simp [hi]
  · simp
  · simp
  · simp

theorem exec_logs_grow {i : Instr} {s t : State} (h : exec i s = .next t) :
    s.events <+: t.events ∧ s.respLog <+: t.respLog ∧ s.refusals <+: t.refusals := by
  obtain ⟨-, phase, reasons, rfl⟩ | ⟨-, responses, reasons, rfl⟩ | ⟨-, phase, fifo, responses, rfl⟩ |
    ⟨-, pst, tmr, emitted, rfl⟩ | ⟨b, -, rfl⟩ | ⟨delta, -, rfl⟩ | ⟨p, -, rfl⟩ := exec_writes h <;> simp

/-- Settles O53: a wait keeps the logs, a refused word appends its reason, and an instruction appends what its unit
writes. -/
theorem logsOnlyGrow : Obligations.LogsOnlyGrow := by
  intro s t h
  obtain ⟨-, rfl⟩ | ⟨x, rest, -, ⟨r, -, rfl⟩ | ⟨i, -, hexec⟩⟩ := step_next h
  · simp
  · simp
  · have hlogs := exec_logs_grow hexec
    exact hlogs

/-! ### The invariant: the timer (R29), the event log (R234) and the result tags (R91) -/

/-- The timer invariant as the equivalence of R29. -/
theorem State.TimerInv.tmr_eq_some_iff {s : State} (h : s.TimerInv) (t : Tag) (d : Ticks) :
    s.tmr = some ⟨t, d⟩ ↔ s.pst = .debouncing t d := by
  rw [h]
  cases s.pst <;> simp [PresenceState.timer?]

theorem State.TimerInv.tmr_eq_none {s : State} (h : s.TimerInv) (hpst : ∀ t d, s.pst ≠ .debouncing t d) :
    s.tmr = none := by
  rw [h]
  cases hs : s.pst with
  | absent => rfl
  | present t => rfl
  | debouncing t d => exact absurd hs (hpst t d)

theorem leavesFollowEnters_nil : LeavesFollowEnters [] := by
  intro n t h
  cases h

/-- An event may be appended when, if it is a `Leave`, the log ends in its `Enter`. -/
theorem LeavesFollowEnters.concat {events : List PresenceEvent} (h : LeavesFollowEnters events) {e : PresenceEvent}
    (he : ∀ t, e = .leave t → events.getLast? = some (.enter t)) : LeavesFollowEnters (events ++ [e]) := by
  intro n t hn
  rcases Nat.lt_or_ge n events.length with hlt | hge
  · rw [List.getElem?_append_left hlt] at hn
    obtain ⟨m, rfl, hm⟩ := h n t hn
    exact ⟨m, rfl, by rwa [List.getElem?_append_left (by omega)]⟩
  · rw [List.getElem?_append_right hge, List.getElem?_singleton] at hn
    obtain ⟨hlen, rfl⟩ : n - events.length = 0 ∧ e = .leave t := by simpa using hn
    have hlast := he t rfl
    rw [List.getLast?_eq_getElem?] at hlast
    obtain ⟨hpos, -⟩ := List.getElem?_eq_some_iff.mp hlast
    exact ⟨events.length - 1, by omega, by rwa [List.getElem?_append_left hpos]⟩

theorem LeavesFollowEnters.concat_enter {events : List PresenceEvent} (h : LeavesFollowEnters events) (t : Tag) :
    LeavesFollowEnters (events ++ [.enter t]) :=
  h.concat (by simp)

theorem LeavesFollowEnters.concat_leave {events : List PresenceEvent} (h : LeavesFollowEnters events) {t : Tag}
    (hlast : events.getLast? = some (.enter t)) : LeavesFollowEnters (events ++ [.leave t]) :=
  h.concat (by rintro _ ⟨⟩; exact hlast)

/-- The invariant reads `pst`, `tmr`, `events` and `resp_log` only. -/
theorem State.Inv.congr {s t : State} (h : s.Inv) (hpst : t.pst = s.pst) (htmr : t.tmr = s.tmr)
    (hevents : t.events = s.events) (hresp : t.respLog = s.respLog) : t.Inv where
  timer := by rw [State.TimerInv, htmr, hpst]; exact h.timer
  lastEvent := by rw [State.LastEventInv, hpst, hevents]; exact h.lastEvent
  leaves := by rw [hevents]; exact h.leaves
  resultTags := by rw [State.ResultTagInv, hresp]; exact h.resultTags

theorem State.powerOn_inv (p : Profile) (fifo : List Byte) (now : Ticks) (inputs : List Input) :
    (State.powerOn p fifo now inputs).Inv where
  timer := rfl
  lastEvent := by intro t h; cases h
  leaves := leavesFollowEnters_nil
  resultTags := by intro st t h; cases h

/-- Settles O39: at power-on there is no presence, no timer and no entry in a log; `State.reset` is a power-on state. -/
theorem invariantHoldsAtReset : Obligations.InvariantHoldsAtReset :=
  ⟨State.powerOn_inv, State.powerOn_inv ..⟩

/-! ### Each unit keeps the invariant -/

/-- A response keeps the invariant unless it is a result of another status than `OK` with a tag other than 0 (R91). -/
theorem State.Inv.respond {s : State} (h : s.Inv) {r : Response}
    (hr : ∀ st t, r = .decodeResult st t → st ≠ .ok → t = 0) : (s.respond r).Inv where
  timer := h.timer
  lastEvent := h.lastEvent
  leaves := h.leaves
  resultTags := by
    intro st t hmem
    rw [State.respond_respLog, List.mem_append, List.mem_singleton] at hmem
    obtain hold | hnew := hmem
    · exact h.resultTags st t hold
    · exact hr st t hnew.symm

/-- The end of a decode call carries the status's tag field, which is 0 for every status but `OK` (R91). -/
theorem State.Inv.endCall {s : State} (h : s.Inv) (st : Status) (t : Tag) : (s.endCall st t).Inv := by
  have hcall : ((if st.isError then s.flush else s).setPhase .idle).Inv := by
    split <;> exact h.congr rfl rfl rfl rfl
  refine hcall.respond ?_
  rintro _ _ ⟨⟩ hne
  exact Status.tagField_of_ne_ok hne t

theorem execVerify_keeps_inv {s t : State} (h : s.Inv) {p : List Byte} {c0 c1 : Byte}
    (hexec : execVerify p c0 c1 s = .next t) : t.Inv := by
  obtain ⟨-, rfl⟩ | ⟨-, rfl⟩ := execVerify_next hexec
  · exact h.respond (by simp)
  · exact h.congr rfl rfl rfl rfl

theorem execStartAnswer_keeps_inv {s t : State} (h : s.Inv) {r : Option Byte} (hexec : execStartAnswer r s = .next t) :
    t.Inv := by
  have hconsumed : (s.consume 1).Inv := h.congr rfl rfl rfl rfl
  obtain ⟨-, ⟨-, rfl⟩ | ⟨-, rfl⟩ | ⟨b, -, -, rfl⟩⟩ := execStartAnswer_next hexec
  · exact h.endCall ..
  · exact h.congr rfl rfl rfl rfl
  · exact hconsumed.endCall ..

theorem execBodyAnswer_keeps_inv {s t : State} (h : s.Inv) {body : List Byte} (hexec : execBodyAnswer body s = .next t) :
    t.Inv := by
  have hconsumed : (s.consume body.length).Inv := h.congr rfl rfl rfl rfl
  obtain ⟨-, rfl⟩ := execBodyAnswer_next hexec
  exact hconsumed.endCall ..

/-- A state whose tag is present without a timer, after a log that ends in the tag's `Enter`. -/
theorem State.Inv.toPresent {s u : State} (h : s.Inv) {t : Tag} (hpst : u.pst = .present t) (htmr : u.tmr = none)
    (hlast : u.events.getLast? = some (.enter t)) (hleaves : LeavesFollowEnters u.events)
    (hresp : u.respLog = s.respLog) : u.Inv where
  timer := by rw [State.TimerInv, htmr, hpst]; rfl
  lastEvent := by
    intro t' htag
    rw [hpst] at htag
    cases htag
    exact hlast
  leaves := hleaves
  resultTags := by rw [State.ResultTagInv, hresp]; exact h.resultTags

theorem execRawEnter_keeps_inv {s u : State} (h : s.Inv) {t2 : Tag} (hexec : execRawEnter t2 s = .next u) : u.Inv := by
  obtain ⟨hpst, rfl⟩ | ⟨hpst, rfl⟩ | ⟨t, hpst, -, rfl⟩ | ⟨d, hpst, rfl⟩ | ⟨t, d, hpst, -, rfl⟩ :=
    execRawEnter_next hexec
  · exact h.toPresent rfl (h.timer.tmr_eq_none (by simp [hpst])) (by simp) (h.leaves.concat_enter t2) rfl
  · exact h.toPresent rfl (h.timer.tmr_eq_none (by simp [hpst])) (h.lastEvent t2 (by rw [hpst]; rfl)) h.leaves rfl
  · exact h.toPresent rfl (h.timer.tmr_eq_none (by simp [hpst])) (by simp) (h.leaves.concat_enter t2) rfl
  · exact h.toPresent rfl rfl (h.lastEvent t2 (by rw [hpst]; rfl)) h.leaves rfl
  · have hlast := h.lastEvent t (by rw [hpst]; rfl)
    exact h.toPresent rfl rfl (by simp) ((h.leaves.concat_leave hlast).concat_enter t2) rfl

theorem execRawLeave_keeps_inv {s u : State} (h : s.Inv) (hexec : execRawLeave s = .next u) : u.Inv := by
  obtain ⟨t, hpst, rfl⟩ | ⟨-, rfl⟩ := execRawLeave_next hexec
  · exact {
      timer := rfl
      lastEvent := by
        rintro _ ⟨⟩
        exact h.lastEvent t (by rw [hpst]; rfl)
      leaves := h.leaves
      resultTags := h.resultTags }
  · exact h

/-- The live timer is that of `pst`, so a fire that is taken confirms the leave, and any other changes nothing. -/
theorem execGraceExpired_keeps_inv {s u : State} (h : s.Inv) {t : Tag} {d : Ticks}
    (hexec : execGraceExpired t d s = .next u) : u.Inv := by
  obtain ⟨-, hpst, rfl⟩ | ⟨⟨hlive, -⟩, hpst, -⟩ | ⟨-, -, rfl⟩ := execGraceExpired_next hexec
  · exact {
      timer := rfl
      lastEvent := by intro t' htag; cases htag
      leaves := h.leaves.concat_leave (h.lastEvent t (by rw [hpst]; rfl))
      resultTags := h.resultTags }
  · exact absurd ((h.timer.tmr_eq_some_iff t d).mp hlive) hpst
  · exact h

theorem execReset_keeps_inv {s u : State} (h : s.Inv) {p : Profile} (hexec : execReset p s = .next u) : u.Inv := by
  obtain rfl := execReset_next hexec
  exact {
    timer := rfl
    lastEvent := by intro t htag; cases htag
    leaves := h.leaves
    resultTags := h.resultTags }

theorem exec_keeps_inv {i : Instr} {s t : State} (h : s.Inv) (hexec : exec i s = .next t) : t.Inv := by
  cases i with
  | decode =>
    obtain ⟨phase, reasons, rfl⟩ := execDecode_writes hexec
    exact h.congr rfl rfl rfl rfl
  | verify p c0 c1 => exact execVerify_keeps_inv h hexec
  | startAnswer r => exact execStartAnswer_keeps_inv h hexec
  | bodyAnswer body => exact execBodyAnswer_keeps_inv h hexec
  | rawEnter t2 => exact execRawEnter_keeps_inv h hexec
  | rawLeave => exact execRawLeave_keeps_inv h hexec
  | graceExpired t1 d => exact execGraceExpired_keeps_inv h hexec
  | byteArrive b =>
    obtain rfl := execByteArrive_next hexec
    exact h.congr rfl rfl rfl rfl
  | timeAdvance delta =>
    obtain rfl := execTimeAdvance_next hexec
    exact h.congr rfl rfl rfl rfl
  | reset p => exact execReset_keeps_inv h hexec

theorem step_keeps_inv {s t : State} (h : s.Inv) (hstep : step s = .next t) : t.Inv := by
  obtain ⟨-, rfl⟩ | ⟨x, rest, -, ⟨r, -, rfl⟩ | ⟨i, -, hexec⟩⟩ := step_next hstep
  · exact h
  · exact h.congr rfl rfl rfl rfl
  · have hfetched : State.Inv { s with inputs := rest } := h.congr rfl rfl rfl rfl
    exact exec_keeps_inv hfetched hexec

/-- Settles O38: a wait and a refused word leave what the invariant reads, and each instruction's unit keeps it. -/
theorem invariantKeptByStep : Obligations.InvariantKeptByStep :=
  fun _ _ => step_keeps_inv

theorem Reachable.inv {s : State} (h : Reachable s) : s.Inv := by
  induction h with
  | powerOn p fifo now inputs => exact State.powerOn_inv p fifo now inputs
  | step _ hstep ih => exact step_keeps_inv ih hstep

/-- Settles O37: the timer part of the invariant, which every reachable state has. -/
theorem timerMatchesPresenceReachable : Obligations.TimerMatchesPresenceReachable :=
  fun _ h => ⟨h.inv.timer.tmr_eq_some_iff, h.inv.timer.tmr_eq_none⟩

/-! ### RESET and power-on -/

/-- Settles O48: RESET is its four writes, and power-on sets every field to its reset value or to what it is given. -/
theorem resetLatchesAndClears : Obligations.ResetLatchesAndClears :=
  ⟨fun _ _ => rfl, fun p => ⟨Profile.frameLength_eq p, rfl⟩,
    fun _ _ _ _ => ⟨rfl, rfl, rfl, rfl, rfl, rfl, rfl, rfl, rfl, rfl, rfl⟩⟩

end Sys2Proof.Machine

/-! ## Memory: the digits of a tag, frames of the two units, and what a flush leaves -/

namespace Sys2Proof

/-! ### Digits and groups of a payload (R62, R63, R64) -/

/-- Appending an `n`-bit digit to a word is multiplication by `2 ^ n` and addition, while nothing is shifted out. -/
theorem toNat_shiftLeft_or {n W : Nat} (a : BitVec W) (d : BitVec n) (hn : n ≤ W) (ha : a.toNat * 2 ^ n < 2 ^ W) :
    (a <<< n ||| d.setWidth W).toNat = 2 ^ n * a.toNat + d.toNat := by
  have hd : d.toNat < 2 ^ W := d.isLt.trans_le (Nat.pow_le_pow_right (by omega) hn)
  rw [BitVec.toNat_or, BitVec.toNat_shiftLeft, BitVec.toNat_setWidth, Nat.mod_eq_of_lt hd,
    Nat.shiftLeft_eq, Nat.mod_eq_of_lt ha, ← Nat.shiftLeft_eq, ← Nat.shiftLeft_add_eq_or_of_lt d.isLt,
    Nat.shiftLeft_eq, Nat.mul_comm]

theorem toNat_hex2 (c1 c2 : Byte) : (hex2 c1 c2).toNat = 16 * (hexval c1).toNat + (hexval c2).toNat := by
  have hc1 : ((hexval c1).setWidth 8).toNat = (hexval c1).toNat := by
    rw [BitVec.toNat_setWidth]; exact Nat.mod_eq_of_lt (by omega)
  rw [hex2, toNat_shiftLeft_or _ _ (by omega) (by omega), hc1]
  norm_num

theorem hex10_concat (s : List Byte) (c : Byte) :
    hex10 (s ++ [c]) = hex10 s <<< 4 ||| (hexval c).setWidth 40 := by
  simp [hex10]

theorem toNat_hex10_lt (s : List Byte) : (hex10 s).toNat < 2 ^ (4 * s.length) := by
  induction s using List.reverseRecOn with
  | nil => simp [hex10]
  | append_singleton s c ih =>
    have hlen : 4 * (s ++ [c]).length = 4 * s.length + 4 := by simp; omega
    have hpow : 2 ^ 4 ≤ 2 ^ (4 * s.length + 4) := Nat.pow_le_pow_right (by omega) (by omega)
    rw [hex10_concat, hlen, BitVec.toNat_or]
    refine Nat.or_lt_two_pow ?_ ?_
    · rw [BitVec.toNat_shiftLeft, Nat.shiftLeft_eq]
      refine (Nat.mod_le _ _).trans_lt ?_
      rw [Nat.pow_add]
      omega
    · rw [BitVec.toNat_setWidth]
      exact (Nat.mod_le _ _).trans_lt ((hexval c).isLt.trans_le hpow)

theorem toNat_hex10_concat {s : List Byte} (h : s.length < 10) (c : Byte) :
    (hex10 (s ++ [c])).toNat = 16 * (hex10 s).toNat + (hexval c).toNat := by
  have hroom : (hex10 s).toNat * 2 ^ 4 < 2 ^ 40 := by
    have hs : 2 ^ (4 * s.length) ≤ 2 ^ 36 := Nat.pow_le_pow_right (by omega) (by omega)
    have := toNat_hex10_lt s
    omega
  rw [hex10_concat, toNat_shiftLeft_or _ _ (by omega) hroom]
  norm_num

/-- The positional sum of the digits, for every sequence that a tag has room for. -/
theorem toNat_hex10 {s : List Byte} (h : s.length ≤ 10) :
    (hex10 s).toNat =
      ((List.range s.length).map fun i => (hexval (s.getD i 0)).toNat * 16 ^ (s.length - 1 - i)).sum := by
  induction s using List.reverseRecOn with
  | nil => rfl
  | append_singleton s c ih =>
    rw [List.length_append, List.length_singleton] at h ⊢
    have hdigits : ∀ i ∈ List.range s.length,
        (hexval ((s ++ [c]).getD i 0)).toNat * 16 ^ (s.length + 1 - 1 - i) =
          16 * ((hexval (s.getD i 0)).toNat * 16 ^ (s.length - 1 - i)) := by
      intro i hi
      have hlt : i < s.length := List.mem_range.mp hi
      rw [List.getD_append _ _ _ _ hlt, show s.length + 1 - 1 - i = s.length - 1 - i + 1 by omega, Nat.pow_succ]
      ring
    rw [toNat_hex10_concat (by omega), ih (by omega), List.range_succ, List.map_append, List.sum_append,
      List.map_congr_left hdigits, List.sum_map_mul_left]
    simp

/-- Settles O10: a group is two digits, and a payload is a sum by induction on its last character. -/
theorem hexParsingIsPositional : Obligations.HexParsingIsPositional :=
  ⟨fun c1 c2 _ _ => toNat_hex2 c1 c2, fun s hlen _ => by rw [toNat_hex10 hlen.le, hlen]⟩

/-- A byte of a word is its two nibbles, high nibble first. -/
theorem extract_byte_eq_nibbles {W : Nat} (w : BitVec W) (j : Nat) :
    w.extractLsb' j 8 = (w.extractLsb' (j + 4) 4).setWidth 8 <<< 4 ||| (w.extractLsb' j 4).setWidth 8 := by
  apply BitVec.eq_of_getLsbD_eq
  intro b hb
  by_cases hlow : b < 4
  · simp [hb, hlow]
  · have hhigh : j + 4 + (b - 4) = j + b := by omega
    simp [hb, hlow, hhigh, show b - 4 < 4 by omega]

/-- Group `k` of a parsed payload (R63, R64). -/
theorem hex10_group {s : List Byte} (h : s.length = 10) (k : Nat) (hk : k < 5) :
    (hex10 s).extractLsb' (32 - 8 * k) 8 = hex2 (s.getD (2 * k) 0) (s.getD (2 * k + 1) 0) := by
  rw [hex2, ← hex10_digit h (2 * k) (by omega), ← hex10_digit h (2 * k + 1) (by omega),
    show 4 * (9 - 2 * k) = 32 - 8 * k + 4 by omega, show 4 * (9 - (2 * k + 1)) = 32 - 8 * k by omega]
  exact extract_byte_eq_nibbles _ _

/-- Settles O11: a group is its two digits. -/
theorem tagBitsAreDigits : Obligations.TagBitsAreDigits := by
  refine fun s hlen _ => ⟨fun i hi => ?_, hex10_group hlen⟩
  rw [show 36 - 4 * i = 4 * (9 - i) by omega, hex10_digit hlen i hi]

end Sys2Proof

namespace Sys2Proof.Machine

/-! ### Frames of the decoder's and the debouncer's steps (R71) -/

/-- A step of the decoder writes the phase, the buffer, the response log and the refusal log. -/
theorem exec_decoder_writes {i : Instr} (hi : i.isDecoderStep = true) {s t : State} (h : exec i s = .next t) :
    ∃ phase fifo responses reasons, t = { s with
      phase := phase, fifo := fifo, respLog := s.respLog ++ responses, refusals := s.refusals ++ reasons } := by
  have hunit : i = .decode ∨ i.isAnswer = true := by cases i <;> simp_all [Instr.isDecoderStep, Instr.isAnswer]
  obtain rfl | hanswer := hunit
  · obtain ⟨phase, reasons, rfl⟩ := execDecode_writes h
    exact ⟨phase, s.fifo, [], reasons, by simp⟩
  · obtain ⟨phase, fifo, responses, rfl⟩ := exec_answer_writes hanswer h
    exact ⟨phase, fifo, responses, [], by simp⟩

/-- Settles O50: each unit's step is a record update of the fields it writes. -/
theorem decoderStepsFrame : Obligations.DecoderStepsFrame := by
  refine ⟨fun i s t h hi => ?_, fun s t h => ?_, fun i s t h hi => ?_, fun s t p c0 c1 h => ?_⟩
  · obtain ⟨phase, fifo, responses, reasons, rfl⟩ := exec_decoder_writes hi h
    exact ⟨rfl, rfl, rfl, rfl, rfl, rfl⟩
  · obtain ⟨phase, reasons, rfl⟩ := execDecode_writes h
    exact ⟨rfl, rfl⟩
  · obtain ⟨phase, fifo, responses, rfl⟩ := exec_answer_writes hi h
    rfl
  · obtain ⟨responses, reasons, rfl⟩ := execVerify_writes h
    rfl

/-- Settles O51: a debouncer step is a record update of the three fields. -/
theorem debouncerStepsFrame : Obligations.DebouncerStepsFrame := by
  intro i s t h hi
  obtain ⟨pst, tmr, emitted, rfl⟩ := exec_debouncer_writes hi h
  rfl

/-! ### Each unit reads and writes its own fields: the two units commute (R71) -/

/-- `s` with the fields that the debouncer writes as in `u`. -/
def State.withPresenceOf (u s : State) : State := { s with pst := u.pst, tmr := u.tmr, events := u.events }

/-- `s` with the fields that the decoder writes as in `u`. -/
def State.withDecoderOf (u s : State) : State :=
  { s with phase := u.phase, fifo := u.fifo, respLog := u.respLog, refusals := u.refusals }

/-- Change the next state of an outcome; a fault and a refusal stay. -/
def mapNext (f : State → State) : Host.Outcome State Fault Refusal → Host.Outcome State Fault Refusal
  | .next s => .next (f s)
  | .fault r => .fault r
  | .refused r => .refused r

theorem mapNext_eq_fault_iff {f : State → State} {o : Host.Outcome State Fault Refusal} {r : Fault} :
    mapNext f o = .fault r ↔ o = .fault r := by
  cases o <;> simp [mapNext]

theorem exec_decoder_eq_withDecoderOf {i : Instr} (hi : i.isDecoderStep = true) {s t : State} (h : exec i s = .next t) :
    t = State.withDecoderOf t s := by
  obtain ⟨phase, fifo, responses, reasons, rfl⟩ := exec_decoder_writes hi h
  rfl

theorem exec_debouncer_eq_withPresenceOf {j : Instr} (hj : j.isDebouncerStep = true) {s t : State}
    (h : exec j s = .next t) : t = State.withPresenceOf t s :=
  debouncerStepsFrame j s t h hj

theorem State.endCall_withPresenceOf (u s : State) (st : Status) (t : Tag) :
    (State.withPresenceOf u s).endCall st t = State.withPresenceOf u (s.endCall st t) := by
  rw [State.endCall_eq, State.endCall_eq]
  rfl

/-- A decoder step reads nothing of the debouncer's fields and carries them along. -/
theorem exec_decoder_withPresenceOf {i : Instr} (hi : i.isDecoderStep = true) (u s : State) :
    exec i (State.withPresenceOf u s) = mapNext (State.withPresenceOf u) (exec i s) := by
  cases i with
  | decode =>
    change execDecode _ = mapNext _ (execDecode s)
    have hphase : (State.withPresenceOf u s).phase = s.phase := rfl
    unfold execDecode
    rw [hphase]
    split <;> rfl
  | startAnswer r =>
    change execStartAnswer r _ = mapNext _ (execStartAnswer r s)
    have hfault : (State.withPresenceOf u s).startAnswerFault r = s.startAnswerFault r := rfl
    unfold execStartAnswer
    rw [hfault]
    cases s.startAnswerFault r with
    | some f => rfl
    | none =>
      cases r with
      | none => exact congrArg _ (State.endCall_withPresenceOf u s ..)
      | some b =>
        by_cases hb : b = stx
        · simp only [hb, ↓reduceIte]
          rfl
        · simp only [hb, ↓reduceIte]
          exact congrArg _ (State.endCall_withPresenceOf u (s.consume 1) ..)
  | bodyAnswer body =>
    change execBodyAnswer body _ = mapNext _ (execBodyAnswer body s)
    have hfault : (State.withPresenceOf u s).bodyAnswerFault body = s.bodyAnswerFault body := rfl
    unfold execBodyAnswer
    rw [hfault]
    cases s.bodyAnswerFault body with
    | some f => rfl
    | none => exact congrArg _ (State.endCall_withPresenceOf u (s.consume body.length) ..)
  | _ => cases hi

/-- A debouncer step reads nothing of the decoder's fields and carries them along. -/
theorem exec_debouncer_withDecoderOf {j : Instr} (hj : j.isDebouncerStep = true) (u s : State) :
    exec j (State.withDecoderOf u s) = mapNext (State.withDecoderOf u) (exec j s) := by
  have hpst : (State.withDecoderOf u s).pst = s.pst := rfl
  cases j with
  | rawEnter t2 =>
    change execRawEnter t2 _ = mapNext _ (execRawEnter t2 s)
    unfold execRawEnter
    rw [hpst]
    cases s.pst with
    | absent => rfl
    | present t => by_cases ht : t2 = t <;> simp only [ht] <;> rfl
    | debouncing t d => by_cases ht : t2 = t <;> simp only [ht] <;> rfl
  | rawLeave =>
    change execRawLeave _ = mapNext _ (execRawLeave s)
    unfold execRawLeave
    rw [hpst]
    cases s.pst <;> rfl
  | graceExpired t d =>
    change execGraceExpired t d _ = mapNext _ (execGraceExpired t d s)
    have htmr : (State.withDecoderOf u s).tmr = s.tmr := rfl
    have hnow : (State.withDecoderOf u s).now = s.now := rfl
    unfold execGraceExpired
    rw [hpst, htmr, hnow]
    (repeat' split) <;> rfl
  | _ => cases hj

/-- Settles O52: each step carries along what the other one writes, so both orders end in the state with the decoder's
fields of `s1` and the debouncer's of `s2`. -/
theorem decoderAndDebouncerCommute : Obligations.DecoderAndDebouncerCommute := by
  intro i j s hi hj
  refine ⟨fun s1 s2 h1 h2 => ⟨State.withDecoderOf s1 s2, ?_, ?_⟩, fun s2 f h2 => ?_, fun s1 f h1 => ?_⟩
  · rw [exec_decoder_eq_withDecoderOf hi h1, exec_debouncer_withDecoderOf hj, h2]
    rfl
  · rw [exec_debouncer_eq_withPresenceOf hj h2, exec_decoder_withPresenceOf hi, h1,
      exec_decoder_eq_withDecoderOf hi h1]
    rfl
  · rw [exec_debouncer_eq_withPresenceOf hj h2, exec_decoder_withPresenceOf hi, mapNext_eq_fault_iff]
  · rw [exec_decoder_eq_withDecoderOf hi h1, exec_debouncer_withDecoderOf hj, mapNext_eq_fault_iff]

/-! ### What a flush leaves, and the next read (R76) -/

theorem State.endCall_status {s : State} {st st' : Status} {t tag : Tag}
    (h : (s.endCall st t).respLog = s.respLog ++ [.decodeResult st' tag]) : st = st' := by
  rw [State.endCall_respLog] at h
  injection List.append_cancel_left h with hresult
  injection hresult

/-- A step that appends a `DecodeResult` is an answer that takes bytes off the buffer and ends the call with its status. -/
theorem exec_result_endsCall {i : Instr} {s t : State} {st : Status} {tag : Tag} (h : exec i s = .next t)
    (hresult : t.respLog = s.respLog ++ [.decodeResult st tag]) :
    ∃ n tag', t = (s.consume n).endCall st tag' := by
  obtain ⟨-, -, -, -, -, hwriter, -⟩ := writersOfEachField i s t h
  obtain hanswer | ⟨p, c0, c1, rfl⟩ := hwriter (by simp [hresult])
  · cases i with
    | startAnswer r =>
      obtain ⟨-, ⟨-, rfl⟩ | ⟨-, rfl⟩ | ⟨b, -, -, rfl⟩⟩ := execStartAnswer_next h
      · obtain rfl := State.endCall_status hresult
        exact ⟨0, 0, rfl⟩
      · simp at hresult
      · obtain rfl := State.endCall_status hresult
        exact ⟨1, 0, rfl⟩
    | bodyAnswer body =>
      obtain ⟨-, rfl⟩ := execBodyAnswer_next h
      obtain rfl := State.endCall_status hresult
      exact ⟨_, _, rfl⟩
    | _ => cases hanswer
  · obtain ⟨-, rfl⟩ | ⟨-, rfl⟩ := execVerify_next h <;> simp at hresult

/-- The one buffered byte is an admissible answer to the start request and is taken from the buffer. -/
theorem exec_startAnswer_single {s : State} {c : Byte} (hphase : s.phase = .waitStart) (hfifo : s.fifo = [c]) :
    ∃ w, exec (.startAnswer (some c)) s = .next w ∧ w.fifo = [] := by
  have henabled : s.startAnswerFault (some c) = none := by
    simp [State.startAnswerFault_eq_none, hphase, hfifo]
  simp only [exec, execStartAnswer, henabled]
  split
  · exact ⟨_, rfl, by simp [hfifo]⟩
  · exact ⟨_, rfl, by simp [hfifo]⟩

/-- The only answer to the start request that is taken is the head of the buffer, `timed_out` when there is none (R252). -/
theorem exec_startAnswer_eq_head {s z : State} {r : Option Byte} (h : exec (.startAnswer r) s = .next z) :
    r = s.fifo.head? := by
  obtain ⟨henabled, -⟩ := execStartAnswer_next h
  obtain ⟨-, hhead, -⟩ := State.startAnswerFault_eq_none.mp henabled
  exact hhead

/-- Settles O24: the call that ends in an error leaves an empty buffer and an idle decoder, so the byte that arrives next is
the head of the buffer when the next start request is answered. -/
theorem arrivalAfterFlushIsFirst : Obligations.ArrivalAfterFlushIsFirst := by
  intro i s t st tag b c h hresult herror
  obtain ⟨n, tag', rfl⟩ := exec_result_endsCall h hresult
  have hempty : (((s.arrive b).consume n).endCall st tag').fifo = [] := by simp [herror]
  generalize hflushed : ((s.arrive b).consume n).endCall st tag' = t at hempty
  have hidle : t.phase = .idle := by rw [← hflushed]; rfl
  obtain ⟨w, hw, hwfifo⟩ :=
    exec_startAnswer_single (s := (t.arrive c).setPhase .waitStart) (c := c) rfl (by simp [hempty])
  refine ⟨hempty, t.arrive c, (t.arrive c).setPhase .waitStart, w, rfl, by simp [hempty], ?_, hw, hwfifo, ?_⟩
  · simp [exec, execDecode, hidle]
  · intro r z hz
    simpa [hempty] using exec_startAnswer_eq_head hz

end Sys2Proof.Machine

/-! ## Encoding: the fields of a command word, the decoder's rows, and both round trips -/

namespace Sys2Proof

/-! ### Fields of a word -/

/-- Two words agree on a field exactly when they agree on its lower and on its upper part. -/
theorem extractLsb'_add_eq_iff {W : Nat} {w v : BitVec W} (start m n : Nat) :
    w.extractLsb' start (m + n) = v.extractLsb' start (m + n) ↔
      w.extractLsb' start m = v.extractLsb' start m ∧ w.extractLsb' (start + m) n = v.extractLsb' (start + m) n := by
  constructor
  · intro h
    have hbit : ∀ k < m + n, w.getLsbD (start + k) = v.getLsbD (start + k) := by
      intro k hk
      simpa [hk] using congrArg (·.getLsbD k) h
    constructor <;> apply BitVec.eq_of_getLsbD_eq <;> intro k hk
    · simp [hk, hbit k (by omega)]
    · simp [hk, Nat.add_assoc, hbit (m + k) (by omega)]
  · rintro ⟨hlow, hhigh⟩
    apply BitVec.eq_of_getLsbD_eq
    intro k hk
    by_cases hkm : k < m
    · simpa [hk, hkm] using congrArg (·.getLsbD k) hlow
    · have hbit := congrArg (·.getLsbD (k - m)) hhigh
      simpa [hk, show k - m < n by omega, show start + m + (k - m) = start + k by omega] using hbit

/-- A field is zero exactly when its lower and its upper part are. -/
theorem extractLsb'_add_eq_zero_iff {W : Nat} {w : BitVec W} (start m n : Nat) :
    w.extractLsb' start (m + n) = 0 ↔ w.extractLsb' start m = 0 ∧ w.extractLsb' (start + m) n = 0 := by
  simpa using extractLsb'_add_eq_iff (w := w) (v := 0) start m n

/-- A word whose bits from `n` on are zero is its lowest `n` bits, extended. -/
theorem setWidth_extractLsb'_of_high_eq_zero {m n : Nat} {x : BitVec (n + m)} (h : x.extractLsb' n m = 0) :
    (x.extractLsb' 0 n).setWidth (n + m) = x := by
  apply BitVec.eq_of_getLsbD_eq
  intro k hk
  by_cases hkn : k < n
  · simp [hk, hkn]
  · have hbit := congrArg (·.getLsbD (k - n)) h
    simp [show k - n < m by omega, show n + (k - n) = k by omega] at hbit
    simp [hkn, hbit]

theorem extractLsb'_setWidth_self {n m : Nat} (x : BitVec n) (h : n ≤ m) : (x.setWidth m).extractLsb' 0 n = x := by
  rw [BitVec.extractLsb'_setWidth_of_le (by omega), BitVec.extractLsb'_eq_self]

theorem extractLsb'_setWidth_high {n m : Nat} (x : BitVec n) (len : Nat) : (x.setWidth m).extractLsb' n len = 0 := by
  apply BitVec.eq_of_getLsbD_eq
  intro k hk
  simp

/-- Masking with ones from bit `n` on keeps the word above `n` and clears it below. -/
theorem and_highMask_eq_iff {W : Nat} {w v : BitVec W} (n k : Nat) (hW : n + k = W) (hlow : v.extractLsb' 0 n = 0) :
    w &&& (BitVec.allOnes W <<< n) = v ↔ w.extractLsb' n k = v.extractLsb' n k := by
  constructor
  · rintro rfl
    apply BitVec.eq_of_getLsbD_eq
    intro j hj
    simp [hj, show n + j < W by omega]
  · intro h
    apply BitVec.eq_of_getLsbD_eq
    intro j hj
    by_cases hjn : j < n
    · simpa [hj, hjn] using (congrArg (·.getLsbD j) hlow).symm
    · have hbit := congrArg (·.getLsbD (j - n)) h
      simpa [hj, hjn, show j - n < k by omega, show n + (j - n) = j by omega] using hbit

/-! ### Fields of a command word (R95, R96) -/

/-- Two command words with equal fields are equal. -/
theorem commandWord_ext {w v : CommandWord} (hop : opField w = opField v) (hrsv : rsvField w = rsvField v)
    (hopnd : opndField w = opndField v) : w = v := by
  have hlow : w.extractLsb' 0 (96 + 24) = v.extractLsb' 0 (96 + 24) :=
    (extractLsb'_add_eq_iff 0 96 24).mpr ⟨hopnd, hrsv⟩
  simpa using (extractLsb'_add_eq_iff 0 120 8).mpr ⟨hlow, hop⟩

theorem commandWord_eq_of_fields {w : CommandWord} {op : BitVec 8} {opnd : BitVec 96} (hop : opField w = op)
    (hrsv : rsvField w = 0) (hopnd : opndField w = opnd) : commandWord op opnd = w :=
  commandWord_ext (by rw [opField_commandWord, hop]) (by rw [rsvField_commandWord, hrsv])
    (by rw [opndField_commandWord, hopnd])

theorem opndField_extractLsb' (w : CommandWord) {start len : Nat} (h : start + len ≤ 96) :
    (opndField w).extractLsb' start len = w.extractLsb' start len :=
  BitVec.extractLsb'_extractLsb'_of_le h

/-- The bits above the operand's lowest `n` are clear exactly when `rsv` and those bits of the operand are (R96). -/
theorem reserved_clear_iff {w : CommandWord} (n k : Nat) (h : n + k = 96) :
    w.extractLsb' n (k + 24) = 0 ↔ rsvField w = 0 ∧ (opndField w).extractLsb' n k = 0 := by
  rw [extractLsb'_add_eq_zero_iff, opndField_extractLsb' w h.le, h, and_comm]
  rfl

theorem reserved_clear_iff_of_noOperand {w : CommandWord} :
    w.extractLsb' 0 120 = 0 ↔ rsvField w = 0 ∧ opndField w = 0 := by
  simpa using reserved_clear_iff (w := w) 0 96 rfl

/-- The word of an operand of `n` bits has clear bits from `n` up to the opcode. -/
theorem commandWord_setWidth_reserved {n : Nat} (op : BitVec 8) (x : BitVec n) (k : Nat) (h : n + k = 96) :
    (commandWord op (x.setWidth 96)).extractLsb' n (k + 24) = 0 :=
  (reserved_clear_iff n k h).mpr
    ⟨rsvField_commandWord .., by rw [opndField_commandWord, extractLsb'_setWidth_high]⟩

/-- The word of an instruction without an operand has every bit below the opcode clear. -/
theorem commandWord_zero_reserved (op : BitVec 8) : (commandWord op 0).extractLsb' 0 120 = 0 :=
  commandWord_setWidth_reserved op (0 : BitVec 0) 96 rfl

/-- A row of the opcode table whose match has the opcode only: its mask selects the opcode and clear bits from `n` up to
the opcode. -/
theorem and_rowMask_eq_iff {w : CommandWord} {op : BitVec 8} (n k : Nat) (h : n + k = 120) :
    w &&& (BitVec.allOnes 128 <<< n) = commandWord op 0 ↔ opField w = op ∧ w.extractLsb' n k = 0 := by
  have hclear : (commandWord op 0).extractLsb' 0 (n + k) = 0 := by
    rw [h]
    exact commandWord_zero_reserved op
  obtain ⟨hlow, hhigh⟩ := (extractLsb'_add_eq_zero_iff 0 n k).mp hclear
  rw [Nat.zero_add] at hhigh
  rw [and_highMask_eq_iff n (k + 8) (by omega) hlow, extractLsb'_add_eq_iff, hhigh, h, and_comm]
  change opField w = opField (commandWord op 0) ∧ _ ↔ _
  rw [opField_commandWord]

/-! ### The decoder's rows (R97, R98) -/

@[simp] theorem unlessReserved_eq_ok_iff {clear : Bool} {i j : Instr} :
    unlessReserved clear i = .ok j ↔ clear = true ∧ j = i := by
  cases clear <;> simp [unlessReserved, eq_comm]

/-- What a command word decodes to: the row of its opcode, its operand read off the word, when every reserved bit is
clear. -/
theorem decodeCommand_eq_ok_iff {w : CommandWord} {i : Instr} :
    decodeCommand w = .ok i ↔
      opField w = 0x01#8 ∧ w.extractLsb' 0 120 = 0 ∧ i = .decode ∨
      opField w = 0x02#8 ∧ w.extractLsb' 96 24 = 0 ∧
        i = .verify (payloadOf w) ((opndField w).extractLsb' 8 8) ((opndField w).extractLsb' 0 8) ∨
      opField w = 0x10#8 ∧ w.extractLsb' 40 80 = 0 ∧ i = .rawEnter ((opndField w).extractLsb' 0 40) ∨
      opField w = 0x11#8 ∧ w.extractLsb' 0 120 = 0 ∧ i = .rawLeave ∨
      opField w = 0x20#8 ∧ w.extractLsb' 64 56 = 0 ∧ i = .timeAdvance ((opndField w).extractLsb' 0 64) := by
  have hrsv : w.extractLsb' 96 24 = 0 ↔ rsvField w = 0 := Iff.rfl
  rw [reserved_clear_iff_of_noOperand, hrsv, reserved_clear_iff 40 56 rfl, reserved_clear_iff 64 32 rfl]
  unfold decodeCommand
  split_ifs with h1 h2 h3 h4 h5
  · simp [h1]
  · simp [h2]
  · simp [h3]
  · simp [h4]
  · simp [h5]
  · simp [h1, h2, h3, h4, h5]

theorem decodeCommand_eq_decode_iff {w : CommandWord} :
    decodeCommand w = .ok .decode ↔ opField w = 0x01#8 ∧ w.extractLsb' 0 120 = 0 := by
  simp [decodeCommand_eq_ok_iff]

theorem decodeCommand_eq_verify_iff {w : CommandWord} {p : List Byte} {c0 c1 : Byte} :
    decodeCommand w = .ok (.verify p c0 c1) ↔
      (opField w = 0x02#8 ∧ w.extractLsb' 96 24 = 0) ∧
        p = payloadOf w ∧ c0 = (opndField w).extractLsb' 8 8 ∧ c1 = (opndField w).extractLsb' 0 8 := by
  simp [decodeCommand_eq_ok_iff, and_assoc]

theorem decodeCommand_eq_rawEnter_iff {w : CommandWord} {t : Tag} :
    decodeCommand w = .ok (.rawEnter t) ↔
      (opField w = 0x10#8 ∧ w.extractLsb' 40 80 = 0) ∧ t = (opndField w).extractLsb' 0 40 := by
  simp [decodeCommand_eq_ok_iff, and_assoc]

theorem decodeCommand_eq_rawLeave_iff {w : CommandWord} :
    decodeCommand w = .ok .rawLeave ↔ opField w = 0x11#8 ∧ w.extractLsb' 0 120 = 0 := by
  simp [decodeCommand_eq_ok_iff]

theorem decodeCommand_eq_timeAdvance_iff {w : CommandWord} {delta : BitVec 64} :
    decodeCommand w = .ok (.timeAdvance delta) ↔
      (opField w = 0x20#8 ∧ w.extractLsb' 64 56 = 0) ∧ delta = (opndField w).extractLsb' 0 64 := by
  simp [decodeCommand_eq_ok_iff, and_assoc]

/-! ### The refusals (R98) -/

theorem decodeCommand_of_unassigned {w : CommandWord} (h : ¬AssignedOpcode (opField w)) :
    decodeCommand w = .error .illegalOpcode := by
  simp only [AssignedOpcode, not_or] at h
  obtain ⟨h1, h2, h3, h4, h5⟩ := h
  simp [decodeCommand, h1, h2, h3, h4, h5]

theorem unlessReserved_eq_error_or_ok (clear : Bool) (i : Instr) :
    unlessReserved clear i = .error .reservedBits ∨ ∃ j, unlessReserved clear i = .ok j := by
  cases clear
  · exact .inl rfl
  · exact .inr ⟨i, rfl⟩

/-- A word with an assigned opcode is refused for its reserved bits only. -/
theorem decodeCommand_of_assigned {w : CommandWord} (h : AssignedOpcode (opField w)) :
    decodeCommand w = .error .reservedBits ∨ ∃ i, decodeCommand w = .ok i := by
  unfold decodeCommand
  obtain hop | hop | hop | hop | hop := h <;> rw [hop] <;> exact unlessReserved_eq_error_or_ok ..

theorem exists_decodeCommand_eq_ok_iff {w : CommandWord} (h : AssignedOpcode (opField w)) :
    (∃ i, decodeCommand w = .ok i) ↔ ¬ReservedBitSet w := by
  obtain hop | hop | hop | hop | hop := h <;> simp [decodeCommand_eq_ok_iff, ReservedBitSet, hop]

/-! ### The operand of VERIFY (R96) -/

theorem payloadOf_eq_map (w : CommandWord) : payloadOf w = (List.range payloadChars).map (payloadField w) := rfl

@[simp] theorem length_payloadOf (w : CommandWord) : (payloadOf w).length = 10 := rfl

/-- Two operands with equal characters are equal. -/
theorem operand_eq_of_chars {x y : BitVec 96}
    (h : ∀ i < 12, x.extractLsb' (8 * (11 - i)) 8 = y.extractLsb' (8 * (11 - i)) 8) : x = y := by
  apply BitVec.eq_of_getLsbD_eq
  intro j hj
  have hbit := congrArg (·.getLsbD (j % 8)) (h (11 - j / 8) (by omega))
  have hpos : 8 * (11 - (11 - j / 8)) + j % 8 = j := by omega
  simp only [BitVec.getLsbD_extractLsb', hpos] at hbit
  simpa [show j % 8 < 8 by omega] using hbit

/-- Character `i` of an operand, as the decoder reads it. -/
theorem decodedChars_getD (w : CommandWord) {i : Nat} (hi : i < 12) :
    (payloadOf w ++ [(opndField w).extractLsb' 8 8, (opndField w).extractLsb' 0 8]).getD i 0 =
      (opndField w).extractLsb' (8 * (11 - i)) 8 := by
  interval_cases i <;> rfl

/-- Packing the characters that the decoder reads gives the operand back. -/
theorem verifyOperand_payloadOf (w : CommandWord) :
    verifyOperand (payloadOf w) ((opndField w).extractLsb' 8 8) ((opndField w).extractLsb' 0 8) = opndField w := by
  refine operand_eq_of_chars fun i hi => ?_
  rw [verifyOperand_extract (length_payloadOf w) _ _ i hi, decodedChars_getD w hi]

section
variable {p : List Byte} (hp : p.length = 10) (c0 c1 : Byte)
include hp

/-- The decoder reads the payload characters that were packed. -/
theorem payloadOf_verify : payloadOf (commandWord 0x02#8 (verifyOperand p c0 c1)) = p := by
  rw [payloadOf_eq_map]
  apply List.ext_getElem
  · simp [hp, payloadChars]
  · intro i hi hip
    have hchar := verifyOperand_extract hp c0 c1 i (by omega)
    rw [List.getD_append _ _ _ _ hip, List.getD_eq_getElem _ _ hip] at hchar
    simp [payloadField, opndField_commandWord, ← hchar, show 8 * (11 - i) = 88 - 8 * i by omega]

theorem verifyOperand_checksum0 : (verifyOperand p c0 c1).extractLsb' 8 8 = c0 := by
  simpa [hp] using verifyOperand_extract hp c0 c1 10 (by omega)

theorem verifyOperand_checksum1 : (verifyOperand p c0 c1).extractLsb' 0 8 = c1 := by
  simpa [hp] using verifyOperand_extract hp c0 c1 11 (by omega)

end

/-! ### Round trips -/

/-- Settles O1: the fields of an encoded word are the opcode, a clear reserved field and the operand, so its row reads the
operand back; an event is presented as itself. -/
theorem decodeInvertsEncode : Obligations.DecodeInvertsEncode := by
  intro i hwf
  cases i with
  | decode => exact decodeCommand_eq_decode_iff.mpr ⟨opField_commandWord .., commandWord_zero_reserved _⟩
  | verify p c0 c1 =>
    have hp : p.length = 10 := by simpa [Instr.wellFormed, payloadChars] using hwf
    refine decodeCommand_eq_verify_iff.mpr ⟨⟨opField_commandWord .., rsvField_commandWord ..⟩, ?_⟩
    rw [payloadOf_verify hp, opndField_commandWord, verifyOperand_checksum0 hp, verifyOperand_checksum1 hp]
    exact ⟨rfl, rfl, rfl⟩
  | rawEnter t =>
    refine decodeCommand_eq_rawEnter_iff.mpr
      ⟨⟨opField_commandWord .., commandWord_setWidth_reserved _ t 56 rfl⟩, ?_⟩
    rw [opndField_commandWord, extractLsb'_setWidth_self t (by omega)]
  | rawLeave => exact decodeCommand_eq_rawLeave_iff.mpr ⟨opField_commandWord .., commandWord_zero_reserved _⟩
  | timeAdvance delta =>
    refine decodeCommand_eq_timeAdvance_iff.mpr
      ⟨⟨opField_commandWord .., commandWord_setWidth_reserved _ delta 32 rfl⟩, ?_⟩
    rw [opndField_commandWord, extractLsb'_setWidth_self delta (by omega)]
  | byteArrive b => rfl
  | startAnswer r => rfl
  | bodyAnswer body => rfl
  | graceExpired t d => rfl
  | reset p => rfl

/-- A word that decodes is rebuilt from the row's opcode and the operand that was read. -/
theorem encode_of_decodeCommand {w : CommandWord} {i : Instr} (h : decodeCommand w = .ok i) :
    i.wellFormed = true ∧ encode i = .command w := by
  obtain ⟨hop, hclear, rfl⟩ | ⟨hop, hrsv, rfl⟩ | ⟨hop, hclear, rfl⟩ | ⟨hop, hclear, rfl⟩ | ⟨hop, hclear, rfl⟩ :=
    decodeCommand_eq_ok_iff.mp h
  · obtain ⟨hrsv, hopnd⟩ := reserved_clear_iff_of_noOperand.mp hclear
    exact ⟨rfl, congrArg _ (commandWord_eq_of_fields hop hrsv hopnd)⟩
  · exact ⟨rfl, congrArg _ (commandWord_eq_of_fields hop hrsv (verifyOperand_payloadOf w).symm)⟩
  · obtain ⟨hrsv, hhigh⟩ := (reserved_clear_iff 40 56 rfl).mp hclear
    exact ⟨rfl, congrArg _ (commandWord_eq_of_fields hop hrsv (setWidth_extractLsb'_of_high_eq_zero hhigh).symm)⟩
  · obtain ⟨hrsv, hopnd⟩ := reserved_clear_iff_of_noOperand.mp hclear
    exact ⟨rfl, congrArg _ (commandWord_eq_of_fields hop hrsv hopnd)⟩
  · obtain ⟨hrsv, hhigh⟩ := (reserved_clear_iff 64 32 rfl).mp hclear
    exact ⟨rfl, congrArg _ (commandWord_eq_of_fields hop hrsv (setWidth_extractLsb'_of_high_eq_zero hhigh).symm)⟩

/-- Settles O2: a word is rebuilt from its fields, and an event is presented as itself. -/
theorem encodeInvertsDecode : Obligations.EncodeInvertsDecode := by
  intro x i h
  cases x with
  | command w => exact encode_of_decodeCommand h
  | event e =>
    obtain rfl : e.toInstr = i := by simpa [decode] using h
    cases e <;> exact ⟨rfl, rfl⟩

/-- Settles O59: the codes and agents are the table's, and an input that decodes to an event is its encoding (O2). -/
theorem eventCodesAsListed : Obligations.EventCodesAsListed := by
  refine ⟨fun _ => ⟨rfl, rfl⟩, fun _ => ⟨rfl, rfl⟩, fun _ => ⟨rfl, rfl⟩, fun _ _ => ⟨rfl, rfl⟩, fun _ => ⟨rfl, rfl⟩,
    fun e => ?_⟩
  obtain ⟨-, hencode⟩ := encodeInvertsDecode (.event e) e.toInstr rfl
  refine ⟨hencode, fun x => ⟨fun hx => ?_, fun hx => by rw [hx]; rfl⟩⟩
  obtain ⟨-, hx'⟩ := encodeInvertsDecode x _ hx
  exact hx'.symm.trans hencode

/-! ### The opcode table (R97, R99) -/

theorem InternalEvent.code_of_ofCode {c : BitVec 8} {e : InternalEvent} (h : ofCode c = some e) : e.code = c := by
  unfold ofCode at h
  split_ifs at h with h0 h1 h2 h3 h4 <;> cases h <;> symm <;> assumption

/-- An 8-bit table word that decodes to an event is that event's code. -/
theorem eq_code_of_decodeTableWord {c : BitVec 8} {e : InternalEvent} (h : decodeTableWord 8 c.toNat = some e.toInstr) :
    c = e.code := by
  obtain ⟨-, -, -, -, -, hevent⟩ := eventCodesAsListed
  have hdecode : decode (inputOfTableWord 8 c.toNat) = .ok e.toInstr := by
    unfold decodeTableWord at h
    cases hd : decode (inputOfTableWord 8 c.toNat) with
    | error r => simp [hd, Except.toOption] at h
    | ok i => simpa [hd, Except.toOption] using h
  rw [(hevent e).2, inputOfTableWord, if_pos rfl, BitVec.ofNat_toNat, BitVec.setWidth_eq] at hdecode
  cases hcode : InternalEvent.ofCode c with
  | none => simp [hcode] at hdecode
  | some e' =>
    obtain rfl : e' = e := by simpa [hcode] using hdecode
    exact (InternalEvent.code_of_ofCode hcode).symm

/-- Settles O4: each command mask selects the row's opcode and its clear reserved bits, and an event's code selects the
event. -/
theorem opcodeTableRowsMatchDecoder : Obligations.OpcodeTableRowsMatchDecoder := by
  refine ⟨fun w => ⟨?_, ?_, ?_, ?_, ?_⟩, fun c => ?_⟩
  · rw [decodeCommand_eq_decode_iff]
    exact (and_rowMask_eq_iff 0 120 rfl).symm
  · simp only [decodeCommand_eq_verify_iff, exists_and_left, exists_eq, and_true]
    exact (and_rowMask_eq_iff 96 24 rfl).symm
  · simp only [decodeCommand_eq_rawEnter_iff, exists_and_left, exists_eq, and_true]
    exact (and_rowMask_eq_iff 40 80 rfl).symm
  · rw [decodeCommand_eq_rawLeave_iff]
    exact (and_rowMask_eq_iff 0 120 rfl).symm
  · simp only [decodeCommand_eq_timeAdvance_iff, exists_and_left, exists_eq, and_true]
    exact (and_rowMask_eq_iff 64 56 rfl).symm
  · rw [show c &&& 0xFF#8 = c from BitVec.and_allOnes]
    refine ⟨⟨?_, ?_⟩, ⟨?_, ?_⟩, ⟨?_, ?_⟩, ⟨?_, ?_⟩, ⟨?_, ?_⟩⟩
    · exact fun ⟨b, h⟩ => eq_code_of_decodeTableWord (e := .byteArrive b) h
    · exact fun h => h ▸ ⟨0, rfl⟩
    · exact fun ⟨r, h⟩ => eq_code_of_decodeTableWord (e := .startAnswer r) h
    · exact fun h => h ▸ ⟨none, rfl⟩
    · exact fun ⟨body, h⟩ => eq_code_of_decodeTableWord (e := .bodyAnswer body) h
    · exact fun h => h ▸ ⟨[], rfl⟩
    · exact fun ⟨t, d, h⟩ => eq_code_of_decodeTableWord (e := .graceExpired t d) h
    · exact fun h => h ▸ ⟨0, 0, rfl⟩
    · exact fun ⟨p, h⟩ => eq_code_of_decodeTableWord (e := .reset p) h
    · exact fun h => h ▸ ⟨⟨.id, false, none, 0, 0⟩, rfl⟩

end Sys2Proof

namespace Sys2Proof.Machine

/-- Settles O3: a refused word is dropped from the schedule and leaves its reason. -/
theorem commandWordsRefusedOrDecoded : Obligations.CommandWordsRefusedOrDecoded := by
  intro s w rest hinputs
  refine ⟨fun hop => ?_, fun hop hreserved => ?_, fun hop hclear => (exists_decodeCommand_eq_ok_iff hop).mpr hclear⟩
  · rw [step_cons hinputs]
    exact applyInput_error (decodeCommand_of_unassigned hop)
  · rw [step_cons hinputs]
    have hrefused : ¬∃ i, decodeCommand w = .ok i := fun hok => (exists_decodeCommand_eq_ok_iff hop).mp hok hreserved
    exact applyInput_error ((decodeCommand_of_assigned hop).resolve_right hrefused)

/-! ### The body of a frame (R81 to R83) -/

/-- An admissible body is taken from the buffer and ends the call with its status. -/
theorem exec_bodyAnswer_of_admissible {body : List Byte} {s : State} (h : s.bodyAnswerFault body = none) :
    exec (.bodyAnswer body) s =
      .next ((s.consume body.length).endCall (frameStatus s.cfg body) (hex10 (payloadSlice body))) := by
  simp [exec, execBodyAnswer, h]

/-- The status of a body reads its length, its payload and, with the checksum enabled, its checksum characters. -/
theorem frameStatus_congr {cfg : Profile} {a b : List Byte} (hlen : a.length = b.length)
    (hpayload : payloadSlice a = payloadSlice b)
    (hchk : cfg.checksumEnabled = true → checksumSlice a = checksumSlice b) :
    frameStatus cfg a = frameStatus cfg b := by
  unfold frameStatus checksumMatches
  cases hen : cfg.checksumEnabled
  · simp [hlen, hpayload]
  · simp [hlen, hpayload, hchk hen]

/-- The state after a complete body that the buffer begins with: the bytes behind it are what stays buffered. -/
theorem exec_bodyAnswer_append {s : State} (hphase : s.phase = .waitBody) {a : List Byte}
    (ha : a.length = s.cfg.frameLength - 1) (rest : List Byte) :
    exec (.bodyAnswer a) { s with fifo := a ++ rest } =
      .next (State.endCall (frameStatus s.cfg a) (hex10 (payloadSlice a)) { s with fifo := rest }) := by
  have hadmissible : State.bodyAnswerFault a { s with fifo := a ++ rest } = none := by
    refine State.bodyAnswerFault_eq_none.mpr ⟨hphase, ?_⟩
    simp [State.bodyAnswerBytes, Profile.bodyLength, ← ha]
  rw [exec_bodyAnswer_of_admissible hadmissible]
  simp [State.consume]

theorem payloadSlice_eq_take_take (a : List Byte) : payloadSlice a = (a.take 12).take 10 := by
  simp [payloadSlice, List.take_take]

theorem checksumSlice_eq_drop_take (a : List Byte) : checksumSlice a = (a.take 12).drop 10 := by
  simp [checksumSlice, List.drop_take]

/-- Settles O28: the two bodies have the same status and payload, and leave the same bytes. -/
theorem trailerIsNotExamined : Obligations.TrailerIsNotExamined := by
  intro s a b rest hphase ha hb hagree
  have hpayload : payloadSlice a = payloadSlice b := by
    obtain h12 | ⟨-, h10⟩ := hagree
    · rw [payloadSlice_eq_take_take, h12, payloadSlice_eq_take_take]
    · exact h10
  have hchk : s.cfg.checksumEnabled = true → checksumSlice a = checksumSlice b := by
    intro henabled
    obtain h12 | ⟨hdisabled, -⟩ := hagree
    · rw [checksumSlice_eq_drop_take, h12, checksumSlice_eq_drop_take]
    · simp [henabled] at hdisabled
  refine ⟨_, exec_bodyAnswer_append hphase ha rest, ?_⟩
  rw [exec_bodyAnswer_append hphase hb rest, frameStatus_congr (ha.trans hb.symm) hpayload hchk, hpayload]

/-! ### Where a step stops (R101) -/

theorem step_ne_refused (s : State) (r : Refusal) : step s ≠ .refused r := by
  cases hinputs : s.inputs with
  | nil => simp [step_nil hinputs]
  | cons x rest =>
    rw [step_cons hinputs, applyInput]
    split
    · exact exec_ne_refused _ _ r
    · simp

theorem exec_ne_fault {i : Instr} {s : State} (hanswer : i.isAnswer = false) (hfire : ∀ t d, i ≠ .graceExpired t d)
    (f : Fault) : exec i s ≠ .fault f := by
  cases i with
  | startAnswer r => cases hanswer
  | bodyAnswer body => cases hanswer
  | graceExpired t d => exact absurd rfl (hfire t d)
  | _ =>
    simp only [exec, execDecode, execVerify, execRawEnter, execRawLeave, execTimeAdvance, execByteArrive, execReset]
    (repeat' split) <;> simp

/-- Only an answer or a fire faults. -/
theorem exec_fault {i : Instr} {s : State} {f : Fault} (h : exec i s = .fault f) :
    (∃ r, i = .startAnswer r ∧ s.startAnswerFault r = some f) ∨
    (∃ body, i = .bodyAnswer body ∧ s.bodyAnswerFault body = some f) ∨
    ∃ t d, i = .graceExpired t d ∧ (s.tmr = some ⟨t, d⟩ ∧ s.now < d ∧ f = .deadlineNotReached ∨
      s.tmr ≠ some ⟨t, d⟩ ∧ s.pst = .debouncing t d ∧ f = .timerNotLive) := by
  cases i with
  | startAnswer r => exact .inl ⟨r, rfl, execStartAnswer_fault h⟩
  | bodyAnswer body => exact .inr (.inl ⟨body, rfl, execBodyAnswer_fault h⟩)
  | graceExpired t d => exact .inr (.inr ⟨t, d, rfl, execGraceExpired_fault h⟩)
  | _ => exact absurd h (exec_ne_fault rfl (by simp) f)

theorem State.startAnswerFault_ne_timerNotLive (r : Option Byte) (s : State) :
    s.startAnswerFault r ≠ some .timerNotLive := by
  unfold State.startAnswerFault
  (repeat' split) <;> simp

theorem State.bodyAnswerFault_ne_timerNotLive (body : List Byte) (s : State) :
    s.bodyAnswerFault body ≠ some .timerNotLive := by
  unfold State.bodyAnswerFault
  (repeat' split) <;> simp

/-- A step that faults is not enabled. -/
theorem exec_fault_notEnabled {i : Instr} {s : State} {f : Fault} (h : exec i s = .fault f) :
    (∃ r, i = .startAnswer r ∧ ¬s.StartAnswerAdmissible r) ∨
    (∃ body, i = .bodyAnswer body ∧ ¬s.BodyAnswerAdmissible body) ∨
    ∃ t d, i = .graceExpired t d ∧ ¬s.FireEnabled t d := by
  obtain ⟨r, rfl, hf⟩ | ⟨body, rfl, hf⟩ | ⟨t, d, rfl, ⟨-, hearly, -⟩ | ⟨hdead, -, -⟩⟩ := exec_fault h
  · exact .inl ⟨r, rfl, by simp [← State.startAnswerFault_eq_none_iff_admissible, hf]⟩
  · exact .inr (.inl ⟨body, rfl, by simp [← State.bodyAnswerFault_eq_none_iff_admissible, hf]⟩)
  · exact .inr (.inr ⟨t, d, rfl, fun ⟨_, hdue⟩ => Nat.not_le_of_lt hearly hdue⟩)
  · exact .inr (.inr ⟨t, d, rfl, fun ⟨hlive, _⟩ => hdead hlive⟩)

theorem exec_ne_timerNotLive {i : Instr} {s : State} (hinv : s.TimerInv) : exec i s ≠ .fault .timerNotLive := by
  intro h
  obtain ⟨r, -, hf⟩ | ⟨body, -, hf⟩ | ⟨t, d, -, ⟨-, -, hf⟩ | ⟨hdead, hpst, -⟩⟩ := exec_fault h
  · exact State.startAnswerFault_ne_timerNotLive r s hf
  · exact State.bodyAnswerFault_ne_timerNotLive body s hf
  · cases hf
  · exact hdead ((hinv.tmr_eq_some_iff t d).mpr hpst)

/-- Settles O56: a fault is that of the instruction at the head of the schedule, and whether a step is enabled does not
depend on the rest of the schedule. -/
theorem stopsOnlyOnStepsNotEnabled : Obligations.StopsOnlyOnStepsNotEnabled := by
  refine fun s => ⟨step_ne_refused s, fun f h => ?_, fun hinv h => ?_⟩
  · obtain ⟨x, rest, i, hinputs, hdecode, hexec⟩ := step_fault h
    exact ⟨x, rest, i, hinputs, hdecode, exec_fault_notEnabled (s := { s with inputs := rest }) hexec⟩
  · obtain ⟨x, rest, i, -, -, hexec⟩ := step_fault h
    exact exec_ne_timerNotLive (s := { s with inputs := rest }) hinv hexec

/-! ### Codes and records (R90 to R94, R100) -/

/-- Settles O7: the codes are read off case by case, and no constructor has a reserved one. -/
theorem codeValuesAsListed : Obligations.CodeValuesAsListed := by
  refine ⟨⟨rfl, rfl, rfl, rfl, rfl, rfl⟩, fun st => ?_, fun st t s => State.endCall_fifo st t s, ⟨rfl, rfl⟩, fun p => ?_,
    ⟨rfl, rfl, rfl⟩, fun _ _ => ⟨rfl, rfl, rfl⟩, fun s => ⟨?_, ?_⟩⟩
  · cases st <;> decide
  · rw [Profile.frameLength_eq]
    cases p.kind <;> rfl
  · cases s.phase <;> decide
  · cases s.pst <;> simp [PresenceState.kindCode]

/-- A field of a record above its 40-bit tag is that of the record's codes. -/
theorem extractLsb'_or_tag (codes : RecordWord) (t : Tag) {start len : Nat} (h : 40 ≤ start) :
    (codes ||| t.setWidth 64).extractLsb' start len = codes.extractLsb' start len := by
  apply BitVec.eq_of_getLsbD_eq
  intro k hk
  simp [hk, BitVec.getLsbD_of_ge t (start + k) (by omega)]

/-- The tag field of a record whose codes are above it. -/
theorem extractLsb'_tag_or {codes : RecordWord} (t : Tag) (h : codes.extractLsb' 0 40 = 0) :
    (codes ||| t.setWidth 64).extractLsb' 0 40 = t := by
  rw [BitVec.extractLsb'_or, h, extractLsb'_setWidth_self t (by omega)]
  exact BitVec.zero_or

/-- Settles O8: the codes of a record lie above its tag, and are read field by field. -/
theorem recordWordLayout : Obligations.RecordWordLayout := by
  refine ⟨fun st t => ?_, fun ok => ?_, fun t => ?_, fun t => ?_⟩
  · refine ⟨(extractLsb'_or_tag _ t (by omega)).trans ?_, (extractLsb'_or_tag _ t (by omega)).trans ?_,
      (extractLsb'_or_tag _ t (by omega)).trans ?_, extractLsb'_tag_or t ?_⟩ <;> cases st <;> decide
  · cases ok <;> decide
  · exact ⟨extractLsb'_or_tag _ t (by omega), extractLsb'_or_tag _ t (by omega), extractLsb'_tag_or t (by decide)⟩
  · exact ⟨extractLsb'_or_tag _ t (by omega), extractLsb'_or_tag _ t (by omega), extractLsb'_tag_or t (by decide)⟩

/-! ### Hexadecimal characters (R85) -/

/-- Settles O9: the comparisons of bytes are those of their values, and each range of characters is one branch of
`hexval`. -/
theorem hexAlphabetAndValues : Obligations.HexAlphabetAndValues := by
  refine ⟨fun b => ?_, fun b hlo hhi => ?_, fun b hlo hhi => ?_, fun b hlo hhi => ?_⟩
  · simp [isHex, BitVec.le_def, or_assoc]
  · have hdigit : b ≤ 0x39#8 := hhi
    rw [hexval, if_pos hdigit, BitVec.toNat_setWidth, BitVec.toNat_sub_of_le hlo]
    simp; omega
  · have hdigit : ¬b ≤ 0x39#8 := by simp [BitVec.le_def]; omega
    rw [hexval, if_neg hdigit, if_pos (BitVec.le_def.mpr hhi)]
    simp; omega
  · have hdigit : ¬b ≤ 0x39#8 := by simp [BitVec.le_def]; omega
    have hupper : ¬b ≤ 0x46#8 := by simp [BitVec.le_def]; omega
    rw [hexval, if_neg hdigit, if_neg hupper]
    simp; omega

/-! ### The expansion of `.frame` (R102) -/

theorem defaultTrailer_eq (kind : ReaderKind) :
    defaultTrailer kind = if kind = .id then [0x0D#8, 0x0A#8, 0x03#8] else [0x03#8] := by
  cases kind <;> rfl

theorem kindFrameLength_eq (kind : ReaderKind) : kindFrameLength kind = if kind = .id then 16 else 14 :=
  Profile.frameLength_eq _

/-- A line with every part given expands when the parts have their lengths. -/
theorem frameBytes_of_lengths {kind : ReaderKind} {payload chk trailer : List Byte} (hp : payload.length = 10)
    (hc : chk.length = 2) (ht : trailer.length = if kind = .id then 3 else 1) :
    frameBytes kind payload (some chk) (some trailer) = some (stx :: payload ++ chk ++ trailer) := by
  refine if_pos ⟨hp, hc, ?_⟩
  cases kind <;> simp [kindFrameLength_eq, hp, hc, ht]

/-- An omitted checksum is the characters of `frameChecksum`. -/
theorem frameBytes_default_checksum (kind : ReaderKind) (payload : List Byte) (trailer : Option (List Byte)) :
    frameBytes kind payload none trailer =
      frameBytes kind payload (some (byteChars (frameChecksum payload))) trailer := rfl

theorem frameBytes_default_trailer (kind : ReaderKind) (payload : List Byte) (chk : Option (List Byte)) :
    frameBytes kind payload chk none = frameBytes kind payload chk (some (defaultTrailer kind)) := rfl

theorem length_of_frameBytes {kind : ReaderKind} {payload : List Byte} {chk trailer : Option (List Byte)}
    {bs : List Byte} (h : frameBytes kind payload chk trailer = some bs) : bs.length = kindFrameLength kind := by
  simp only [frameBytes] at h
  split_ifs at h with hlengths
  obtain ⟨-, -, hlen⟩ := hlengths
  cases h
  exact hlen

/-- Settles O58: an omitted part is its default, and a line with every part expands to the parts in order. -/
theorem frameStatementExpansion : Obligations.FrameStatementExpansion := by
  refine ⟨fun kind t => ?_, fun kind payload chk trailer hp hc ht => frameBytes_of_lengths hp hc ht,
    fun kind payload trailer hhex => ?_, fun kind payload trailer _ => ⟨_, frameBytes_default_checksum ..⟩,
    fun kind payload chk => ?_, fun kind payload chk trailer bs h => ?_⟩
  · rw [frameBytes_default_checksum, frameBytes_default_trailer, frameChecksum_tagChars, defaultTrailer_eq]
    exact frameBytes_of_lengths (length_tagChars t) (length_byteChars _) (by cases kind <;> rfl)
  · rw [frameBytes_default_checksum, frameChecksum_of_allHex hhex]
  · rw [frameBytes_default_trailer, defaultTrailer_eq]
  · rw [length_of_frameBytes h, kindFrameLength_eq]

end Sys2Proof.Machine

/-! ## FrameDecoder: how a decode call goes on and how it ends -/

namespace Sys2Proof

theorem allHex_eq_true_iff {s : List Byte} : allHex s = true ↔ ∀ b ∈ s, isHex b = true := List.all_eq_true

/-- A body has room for the payload and the checksum characters (R82). -/
theorem Profile.twelve_le_bodyLength (p : Profile) : 12 ≤ p.bodyLength := by
  rw [Profile.bodyLength, Profile.frameLength_eq]
  split <;> omega

theorem payloadSlice_take {n : Nat} (h : 10 ≤ n) (bytes : List Byte) : payloadSlice (bytes.take n) = bytes.take 10 := by
  rw [payloadSlice, List.take_take, Nat.min_eq_left h]

theorem payloadSlice_append {payload : List Byte} (h : payload.length = 10) (rest : List Byte) :
    payloadSlice (payload ++ rest) = payload :=
  List.take_left' h

theorem payloadSlice_tagFrame (t : Tag) (chk trailer : List Byte) :
    payloadSlice (tagChars t ++ chk ++ trailer) = tagChars t := by
  rw [List.append_assoc, payloadSlice_append (length_tagChars t)]

theorem checksumSlice_append {payload chk : List Byte} (hp : payload.length = 10) (hc : chk.length = 2)
    (rest : List Byte) : checksumSlice (payload ++ chk ++ rest) = chk := by
  rw [checksumSlice, List.append_assoc, List.drop_left' hp, List.take_left' hc]

/-- The checksum characters of a body that has both. -/
theorem checksumSlice_eq_pair {body : List Byte} (h : 12 ≤ body.length) :
    checksumSlice body = [body.getD 10 0, body.getD 11 0] := by
  have h10 : 10 < body.length := by omega
  have h11 : 11 < body.length := by omega
  rw [checksumSlice, List.drop_eq_getElem_cons h10, List.drop_eq_getElem_cons h11, List.getD_eq_getElem _ _ h10,
    List.getD_eq_getElem _ _ h11]
  rfl

theorem getD_take_of_lt {bytes : List Byte} {i n : Nat} (h : i < n) : (bytes.take n).getD i 0 = bytes.getD i 0 := by
  rw [List.getD_eq_getElem?_getD, List.getElem?_take_of_lt h, List.getD_eq_getElem?_getD]

end Sys2Proof

namespace Sys2Proof.Machine

/-! ### The status of a body, check by check (R124, R125) -/

theorem checksumMatches_iff {body : List Byte} (h : 12 ≤ body.length) :
    checksumMatches body = true ↔ isHex (body.getD 10 0) = true ∧ isHex (body.getD 11 0) = true ∧
      xor5 (payloadSlice body) = hex2 (body.getD 10 0) (body.getD 11 0) := by
  rw [checksumMatches, checksumSlice_eq_pair h]
  simp [and_assoc]

section
variable {cfg : Profile} {body : List Byte}

theorem frameStatus_of_short (hshort : body.length < cfg.bodyLength) : frameStatus cfg body = .incomplete :=
  if_pos hshort

theorem frameStatus_of_nonhex (hfull : cfg.bodyLength ≤ body.length) (hpayload : allHex (payloadSlice body) = false) :
    frameStatus cfg body = .malformed := by
  simp [frameStatus, Nat.not_lt.mpr hfull, hpayload]

theorem frameStatus_of_mismatch (hfull : cfg.bodyLength ≤ body.length) (hpayload : allHex (payloadSlice body) = true)
    (henabled : cfg.checksumEnabled = true) (hchk : checksumMatches body = false) :
    frameStatus cfg body = .checksum := by
  simp [frameStatus, Nat.not_lt.mpr hfull, hpayload, henabled, hchk]

theorem frameStatus_of_good (hfull : cfg.bodyLength ≤ body.length) (hpayload : allHex (payloadSlice body) = true)
    (hchk : cfg.checksumEnabled = true → checksumMatches body = true) : frameStatus cfg body = .ok := by
  simpa [frameStatus, Nat.not_lt.mpr hfull, hpayload] using hchk

end

theorem frameStatus_ne_noData (cfg : Profile) (body : List Byte) : frameStatus cfg body ≠ .noData := by
  unfold frameStatus
  (repeat' split) <;> simp

/-! ### The answers of the ByteSource (R122, R124) -/

/-- What a body answer takes off the buffer is the first `L - 1` bytes, or all of them. -/
theorem State.drop_bodyAnswerBytes_length (s : State) :
    s.fifo.drop s.bodyAnswerBytes.length = s.fifo.drop (s.cfg.frameLength - 1) := by
  rw [State.bodyAnswerBytes, List.length_take, Profile.bodyLength]
  rcases Nat.le_total (s.cfg.frameLength - 1) s.fifo.length with h | h
  · rw [Nat.min_eq_left h]
  · rw [Nat.min_eq_right h, List.drop_length, List.drop_of_length_le h]

section
variable {s : State}

theorem exec_startAnswer_timedOut (hphase : s.phase = .waitStart) (hfifo : s.fifo = [])
    (htimeout : s.cfg.primaryTimeout ≠ none) : exec (.startAnswer none) s = .next (s.endCall .noData 0) := by
  have henabled : s.startAnswerFault none = none :=
    State.startAnswerFault_eq_none.mpr ⟨hphase, by rw [hfifo]; rfl, fun _ => htimeout⟩
  simp [exec, execStartAnswer, henabled]

theorem State.startAnswerFault_head (hphase : s.phase = .waitStart) {b : Byte} {rest : List Byte}
    (hfifo : s.fifo = b :: rest) : s.startAnswerFault (some b) = none :=
  State.startAnswerFault_eq_none.mpr ⟨hphase, by rw [hfifo]; rfl, by simp [hfifo]⟩

theorem exec_startAnswer_marker (hphase : s.phase = .waitStart) {rest : List Byte} (hfifo : s.fifo = stx :: rest) :
    exec (.startAnswer (some stx)) s = .next ((s.consume 1).setPhase .waitBody) := by
  simp [exec, execStartAnswer, State.startAnswerFault_head hphase hfifo]

theorem exec_startAnswer_otherByte (hphase : s.phase = .waitStart) {b : Byte} {rest : List Byte}
    (hfifo : s.fifo = b :: rest) (hb : b ≠ stx) :
    exec (.startAnswer (some b)) s = .next ((s.consume 1).endCall .badStart 0) := by
  simp [exec, execStartAnswer, State.startAnswerFault_head hphase hfifo, hb]

theorem exec_bodyAnswer_bytes (hphase : s.phase = .waitBody) :
    exec (.bodyAnswer s.bodyAnswerBytes) s = .next ((s.consume s.bodyAnswerBytes.length).endCall
      (frameStatus s.cfg s.bodyAnswerBytes) (hex10 (payloadSlice s.bodyAnswerBytes))) :=
  exec_bodyAnswer_of_admissible (State.bodyAnswerFault_eq_none.mpr ⟨hphase, rfl⟩)

/-- A body with an error status ends the call with an empty buffer and tag 0. -/
theorem exec_bodyAnswer_error (hphase : s.phase = .waitBody) {st : Status}
    (hstatus : frameStatus s.cfg s.bodyAnswerBytes = st) (herror : st.isError = true) :
    exec (.bodyAnswer s.bodyAnswerBytes) s = .next
      { s with phase := .idle, fifo := [], respLog := s.respLog ++ [.decodeResult st 0] } := by
  have hne : st ≠ .ok := by rintro rfl; cases herror
  rw [exec_bodyAnswer_bytes hphase, hstatus, State.endCall_eq, Status.tagField_of_ne_ok hne]
  simp [herror, State.consume]

/-- A body with status `OK` ends the call with the tag of its payload and leaves what follows it. -/
theorem exec_bodyAnswer_ok (hphase : s.phase = .waitBody) (hstatus : frameStatus s.cfg s.bodyAnswerBytes = .ok) :
    exec (.bodyAnswer s.bodyAnswerBytes) s = .next { s with
      phase := .idle
      fifo := s.fifo.drop (s.cfg.frameLength - 1)
      respLog := s.respLog ++ [.decodeResult .ok (hex10 (payloadSlice s.bodyAnswerBytes))] } := by
  rw [exec_bodyAnswer_bytes hphase, hstatus, State.endCall_eq, ← State.drop_bodyAnswerBytes_length]
  rfl

end

/-- Settles O18: each answer is admissible, and the request that follows the marker is that of WAIT_BODY. -/
theorem startAnswerResults : Obligations.StartAnswerResults := by
  intro s hphase
  refine ⟨fun hfifo htimeout => ?_, fun rest hfifo => ⟨?_, rfl⟩, fun b rest hfifo hb => ?_⟩
  · rw [exec_startAnswer_timedOut hphase hfifo htimeout]
    rfl
  · refine (exec_startAnswer_marker hphase hfifo).trans ?_
    simp [State.consume, State.setPhase, hfifo]
  · rw [exec_startAnswer_otherByte hphase hfifo hb]
    rfl

/-- Settles O20: the status of the bytes taken is that of the first failing check, each check read off the buffer. -/
theorem bodyAnswerResults : Obligations.BodyAnswerResults := by
  intro s hphase n body payload c0 c1 hexPayload goodChecksum fails
  have hroom : 12 ≤ n := s.cfg.twelve_le_bodyLength
  have hpayload : payloadSlice body = payload := payloadSlice_take (by omega) s.fifo
  have hhex : allHex (payloadSlice body) = true ↔ hexPayload := by rw [hpayload, allHex_eq_true_iff]
  have hfull : n ≤ s.fifo.length → body.length = n := List.length_take_of_le
  have hchk : n ≤ s.fifo.length → (checksumMatches body = true ↔ goodChecksum) := fun hlen => by
    have hc0 : body.getD 10 0 = c0 := getD_take_of_lt (by omega)
    have hc1 : body.getD 11 0 = c1 := getD_take_of_lt (by omega)
    rw [checksumMatches_iff (by rw [hfull hlen]; exact hroom), hc0, hc1, hpayload]
  refine ⟨fun hshort => ?_, fun hlen hnonhex => ?_, fun hlen hp henabled hbad => ?_, fun hlen hp hgood => ?_⟩
  · have hlt : body.length < n := (List.length_take_le' _ _).trans_lt hshort
    exact exec_bodyAnswer_error hphase (frameStatus_of_short hlt) rfl
  · have hnot := Bool.eq_false_iff.mpr (mt hhex.mp hnonhex)
    exact exec_bodyAnswer_error hphase (frameStatus_of_nonhex (hfull hlen).ge hnot) rfl
  · have hnot := Bool.eq_false_iff.mpr (mt (hchk hlen).mp hbad)
    exact exec_bodyAnswer_error hphase (frameStatus_of_mismatch (hfull hlen).ge (hhex.mpr hp) henabled hnot) rfl
  · have hstatus : frameStatus s.cfg body = .ok :=
      frameStatus_of_good (hfull hlen).ge (hhex.mpr hp) fun henabled => (hchk hlen).mpr (hgood henabled)
    rw [← hpayload]
    exact exec_bodyAnswer_ok hphase hstatus

/-! ### One decode call from DECODE to its result (R130) -/

theorem execAll_cons {i : Instr} {rest : List Instr} {s t : State} (h : exec i s = .next t) :
    execAll (i :: rest) s = execAll rest t := by
  simp [execAll, h]

theorem exec_decode_of_idle {s : State} (h : s.phase = .idle) : exec .decode s = .next (s.setPhase .waitStart) := by
  simp [exec, execDecode, h]

/-- The characters of a tag with their checksum pass every check, whatever the trailer is. -/
theorem frameStatus_tagFrame {cfg : Profile} (t : Tag) {trailer : List Byte}
    (hlen : trailer.length = cfg.frameLength - 13) :
    frameStatus cfg (tagChars t ++ byteChars (xor5 (tagChars t)) ++ trailer) = .ok := by
  have hroom := cfg.twelve_le_bodyLength
  refine frameStatus_of_good ?_ (by rw [payloadSlice_tagFrame, allHex_tagChars]) fun _ => ?_
  · simp only [List.length_append, length_tagChars, length_byteChars, Profile.bodyLength] at hroom ⊢
    omega
  · rw [checksumMatches, payloadSlice_tagFrame, checksumSlice_append (length_tagChars t) (length_byteChars _),
      allHex_byteChars]
    simp [byteChars]

/-- Settles O29: the marker is taken, and the body behind it has status `OK` and the tag as its payload. -/
theorem decodeOfTagFrameIsTag : Obligations.DecodeOfTagFrameIsTag := by
  intro s t trailer rest hidle htrailer body hfifo
  have hlen : body.length = s.cfg.frameLength - 1 := by
    have hroom := s.cfg.twelve_le_bodyLength
    simp only [body, List.length_append, length_tagChars, length_byteChars, Profile.bodyLength] at hroom ⊢
    omega
  have hmarker := exec_startAnswer_marker (s := s.setPhase .waitStart) rfl hfifo
  have hbehind : ((s.setPhase .waitStart).consume 1).setPhase .waitBody =
      { s with phase := .waitBody, fifo := body ++ rest } := by
    simp [State.setPhase, State.consume, hfifo]
  have hstatus : frameStatus s.cfg body = .ok := frameStatus_tagFrame t htrailer
  have htag : hex10 (payloadSlice body) = t := by rw [payloadSlice_tagFrame, hex10_tagChars]
  have hbody : exec (.bodyAnswer body) { s with phase := .waitBody, fifo := body ++ rest } =
      .next (State.endCall .ok t { s with phase := .waitBody, fifo := rest }) := by
    simpa only [hstatus, htag] using exec_bodyAnswer_append (s := { s with phase := .waitBody }) rfl hlen rest
  rw [hbehind] at hmarker
  calc execAll [.decode, .startAnswer (some stx), .bodyAnswer body] s
      = some (State.endCall .ok t { s with phase := .waitBody, fifo := rest }) := by
        rw [execAll_cons (exec_decode_of_idle hidle), execAll_cons hmarker, execAll_cons hbody, execAll]
    _ = some { s with fifo := rest, respLog := s.respLog ++ [.decodeResult .ok t] } := by
        simp [State.endCall_eq, Status.isError, hidle]

/-! ### Every step goes on with a decode call, ends it, or leaves it alone (R133) -/

/-- The ways a decode call ends (R122, R124): the answer, its status and the state after it. -/
inductive EndsCall (s : State) : Instr → Status → State → Prop where
  | timedOut : s.phase = .waitStart → EndsCall s (.startAnswer none) .noData (s.endCall .noData 0)
  | badStart {b : Byte} : s.phase = .waitStart → b ≠ stx →
      EndsCall s (.startAnswer (some b)) .badStart ((s.consume 1).endCall .badStart 0)
  | body : s.phase = .waitBody → EndsCall s (.bodyAnswer s.bodyAnswerBytes) (frameStatus s.cfg s.bodyAnswerBytes)
      ((s.consume s.bodyAnswerBytes.length).endCall (frameStatus s.cfg s.bodyAnswerBytes)
        (hex10 (payloadSlice s.bodyAnswerBytes)))

/-- The step from `s` to `t` appends no `DecodeResult`. -/
def NoResult (s t : State) : Prop := ∀ st tag, Response.decodeResult st tag ∉ t.respLog.drop s.respLog.length

/-- What a step that does not end a call does to the phase: the other rows of the phase table (R133), RESET, or nothing. -/
inductive KeepsCall (s : State) : Instr → State → Prop where
  | start {t : State} : s.phase = .idle → t.phase = .waitStart → KeepsCall s .decode t
  | marker {t : State} : s.phase = .waitStart → t.phase = .waitBody → KeepsCall s (.startAnswer (some stx)) t
  | reset {p : Profile} {t : State} : t.phase = .idle → KeepsCall s (.reset p) t
  | samePhase {i : Instr} {t : State} : t.phase = s.phase → KeepsCall s i t

theorem noResult_of_respLog_eq {s t : State} (h : t.respLog = s.respLog) : NoResult s t := by
  simp [NoResult, h]

theorem NoResult.respLog_ne {s t : State} (h : NoResult s t) (st : Status) (tag : Tag) :
    t.respLog ≠ s.respLog ++ [.decodeResult st tag] := by
  intro hlog
  exact h st tag (by simp [hlog])

section
variable {s t : State} {i : Instr} {st : Status}

theorem EndsCall.respLog (h : EndsCall s i st t) : ∃ tag, t.respLog = s.respLog ++ [.decodeResult st tag] := by
  cases h <;> exact ⟨_, State.endCall_respLog ..⟩

theorem EndsCall.phase_ne_idle (h : EndsCall s i st t) : s.phase ≠ .idle := by
  cases h <;> simp [*]

theorem EndsCall.phase_eq_idle (h : EndsCall s i st t) : t.phase = .idle := by
  cases h <;> rfl

/-- The status of an ended call is the one in the response log. -/
theorem EndsCall.status_eq (h : EndsCall s i st t) {st' : Status} {tag : Tag}
    (hlog : t.respLog = s.respLog ++ [.decodeResult st' tag]) : st = st' := by
  cases h <;> exact State.endCall_status hlog

/-- What ends a call leaves in the buffer, by the status (R126). -/
theorem EndsCall.fifo (h : EndsCall s i st t) :
    t.fifo = if st.isError then [] else if st = .noData then s.fifo else s.fifo.drop (s.cfg.frameLength - 1) := by
  cases h with
  | timedOut _ => rfl
  | badStart _ _ => rfl
  | body _ => simp [frameStatus_ne_noData, State.drop_bodyAnswerBytes_length]

/-- RESET aside, a step that does not end a call does not bring a waiting decoder to IDLE. -/
theorem KeepsCall.phase_ne_idle (h : KeepsCall s i t) (hreset : ∀ p, i ≠ .reset p) (hphase : s.phase ≠ .idle) :
    t.phase ≠ .idle := by
  cases h with
  | start hidle _ => exact absurd hidle hphase
  | marker _ hnext => simp [hnext]
  | reset _ => exact absurd rfl (hreset _)
  | samePhase hsame => rwa [hsame]

theorem exec_startAnswer_keeps_or_ends {r : Option Byte} (h : exec (.startAnswer r) s = .next t) :
    (∃ st, EndsCall s (.startAnswer r) st t) ∨ KeepsCall s (.startAnswer r) t ∧ NoResult s t := by
  obtain ⟨henabled, hcases⟩ := execStartAnswer_next h
  obtain ⟨hphase, -, -⟩ := State.startAnswerFault_eq_none.mp henabled
  obtain ⟨rfl, rfl⟩ | ⟨rfl, rfl⟩ | ⟨b, rfl, hb, rfl⟩ := hcases
  · exact .inl ⟨_, .timedOut hphase⟩
  · exact .inr ⟨.marker hphase rfl, noResult_of_respLog_eq rfl⟩
  · exact .inl ⟨_, .badStart hphase hb⟩

/-- Every step, by what it does to the decode call. -/
theorem exec_keeps_or_ends (h : exec i s = .next t) :
    (∃ st, EndsCall s i st t) ∨ KeepsCall s i t ∧ NoResult s t := by
  cases i with
  | decode =>
    obtain ⟨hidle, rfl⟩ | ⟨-, rfl⟩ := execDecode_next h
    · exact .inr ⟨.start hidle rfl, noResult_of_respLog_eq rfl⟩
    · exact .inr ⟨.samePhase rfl, noResult_of_respLog_eq rfl⟩
  | verify p c0 c1 =>
    obtain ⟨-, rfl⟩ | ⟨-, rfl⟩ := execVerify_next h
    · exact .inr ⟨.samePhase rfl, by simp [NoResult]⟩
    · exact .inr ⟨.samePhase rfl, noResult_of_respLog_eq rfl⟩
  | startAnswer r => exact exec_startAnswer_keeps_or_ends h
  | bodyAnswer body =>
    obtain ⟨henabled, rfl⟩ := execBodyAnswer_next h
    obtain ⟨hphase, rfl⟩ := State.bodyAnswerFault_eq_none.mp henabled
    exact .inl ⟨_, .body hphase⟩
  | reset p =>
    obtain rfl := execReset_next h
    exact .inr ⟨.reset rfl, noResult_of_respLog_eq rfl⟩
  | _ =>
    obtain ⟨-, hphase, -, -, -, hlog, -⟩ := writersOfEachField _ s t h
    have hphase_eq : t.phase = s.phase := by simpa [Instr.isDecoderStep] using hphase
    have hlog_eq : t.respLog = s.respLog := by simpa [Instr.isAnswer] using hlog
    exact .inr ⟨.samePhase hphase_eq, noResult_of_respLog_eq hlog_eq⟩

end

/-- Settles O23: the step ends a call with that status. -/
theorem flushExactlyOnError : Obligations.FlushExactlyOnError := by
  intro i s t st tag h hlog
  obtain ⟨st', hends⟩ | ⟨-, hnone⟩ := exec_keeps_or_ends h
  · obtain rfl := hends.status_eq hlog
    rw [hends.fifo]
    refine ⟨?_, ?_, ?_⟩
    · rintro (rfl | rfl | rfl | rfl) <;> rfl
    · rintro rfl; rfl
    · rintro rfl; rfl
  · exact absurd hlog (hnone.respLog_ne st tag)

/-- Settles O25: the rows are the ways a call ends and the ways a step keeps it. -/
theorem phaseChangesFollowTable : Obligations.PhaseChangesFollowTable := by
  intro i s t h hchange
  obtain ⟨st, hends⟩ | ⟨hkeeps, -⟩ := exec_keeps_or_ends h
  · have hidle := hends.phase_eq_idle
    cases hends with
    | timedOut hphase => exact .inr (.inl ⟨hphase, rfl, hidle⟩)
    | badStart hphase hb => exact .inr (.inr (.inr (.inl ⟨hphase, ⟨_, hb, rfl⟩, hidle⟩)))
    | body hphase => exact .inr (.inr (.inr (.inr (.inl ⟨hphase, ⟨_, rfl⟩, hidle⟩))))
  · cases hkeeps with
    | start hphase hnext => exact .inl ⟨hphase, rfl, hnext⟩
    | marker hphase hnext => exact .inr (.inr (.inl ⟨hphase, rfl, hnext⟩))
    | reset hidle => exact .inr (.inr (.inr (.inr (.inr ⟨⟨_, rfl⟩, hidle⟩))))
    | samePhase hsame => exact absurd hsame hchange

/-- Settles O26: a step that ends a call does both, and any other step does neither. -/
theorem callEndsWithOneResult : Obligations.CallEndsWithOneResult := by
  intro i s t h hreset
  obtain ⟨st, hends⟩ | ⟨hkeeps, hnone⟩ := exec_keeps_or_ends h
  · obtain ⟨tag, hlog⟩ := hends.respLog
    exact ⟨iff_of_true ⟨hends.phase_ne_idle, hends.phase_eq_idle⟩ ⟨st, tag, hlog⟩, fun _ => ⟨st, tag, hlog⟩⟩
  · have hsame : ¬(s.phase ≠ .idle ∧ t.phase = .idle) := fun ⟨hphase, hidle⟩ =>
      hkeeps.phase_ne_idle hreset hphase hidle
    have hlog : ¬∃ st tag, t.respLog = s.respLog ++ [.decodeResult st tag] := fun ⟨st, tag, hlog⟩ =>
      hnone.respLog_ne st tag hlog
    exact ⟨iff_of_false hsame hlog, fun ⟨st, tag, hmem⟩ => absurd hmem (hnone st tag)⟩

end Sys2Proof.Machine

/-! ## ChecksumValidator: the checksum as an XOR of groups, VERIFY, and its relation to the decoder -/

namespace Sys2Proof

/-! ### The XOR of five groups (R160) -/

/-- Group `k` of a payload (R63). -/
def payloadGroup (p : List Byte) (k : Nat) : Byte := hex2 (p.getD (2 * k) 0) (p.getD (2 * k + 1) 0)

/-- The XOR of five indexed bytes. -/
def xorFive (f : Nat → Byte) : Byte := f 0 ^^^ f 1 ^^^ f 2 ^^^ f 3 ^^^ f 4

theorem xorFive_congr {f h : Nat → Byte} (heq : ∀ k, k < 5 → f k = h k) : xorFive f = xorFive h := by
  simp [xorFive, heq]

theorem xorFive_xor (f h : Nat → Byte) : xorFive (fun k => f k ^^^ h k) = xorFive f ^^^ xorFive h := by
  simp only [xorFive]
  ac_rfl

theorem xorFive_single {j : Nat} (hj : j < 5) (m : Byte) : xorFive (fun k => if k = j then m else 0) = m := by
  interval_cases j <;> simp [xorFive]

/-- A mask that stands at two places cancels. -/
theorem xorFive_pair {j k : Nat} (hj : j < 5) (hk : k < 5) (hne : j ≠ k) (m : Byte) :
    xorFive (fun g => if g = j ∨ g = k then m else 0) = 0 := by
  have hsplit : ∀ g, g < 5 → (if g = j ∨ g = k then m else 0) =
      (if g = j then m else 0) ^^^ (if g = k then m else 0) := by
    intro g _
    by_cases hgj : g = j
    · simp [hgj, hne]
    · simp [hgj]
  rw [xorFive_congr hsplit, xorFive_xor, xorFive_single hj, xorFive_single hk]
  exact BitVec.xor_self

theorem xor5_tenChars (p0 p1 p2 p3 p4 p5 p6 p7 p8 p9 : Byte) :
    xor5 [p0, p1, p2, p3, p4, p5, p6, p7, p8, p9] =
      hex2 p0 p1 ^^^ hex2 p2 p3 ^^^ hex2 p4 p5 ^^^ hex2 p6 p7 ^^^ hex2 p8 p9 := by
  simp [xor5_cons, BitVec.xor_assoc]

theorem xor5_eq_xorFive_payloadGroup {p : List Byte} (h : p.length = 10) : xor5 p = xorFive (payloadGroup p) := by
  match p, h with
  | [p0, p1, p2, p3, p4, p5, p6, p7, p8, p9], _ => exact xor5_tenChars p0 p1 p2 p3 p4 p5 p6 p7 p8 p9

/-! ### The checksum in terms of the tag (R162) -/

theorem xor5_eq_tagBytes {p : List Byte} (h : p.length = 10) :
    xor5 p = xorFive fun k => (hex10 p).extractLsb' (32 - 8 * k) 8 :=
  (xor5_eq_xorFive_payloadGroup h).trans (xorFive_congr fun k hk => (hex10_group h k hk).symm)

theorem xor5_eq_of_hex10_eq {p q : List Byte} (hp : p.length = 10) (hq : q.length = 10) (heq : hex10 p = hex10 q) :
    xor5 p = xor5 q := by
  rw [xor5_eq_tagBytes hp, heq, ← xor5_eq_tagBytes hq]

theorem xor5_flatMap_perm {g h : List (Byte × Byte)} (hperm : g.Perm h) :
    xor5 (g.flatMap fun c => [c.1, c.2]) = xor5 (h.flatMap fun c => [c.1, c.2]) := by
  induction hperm with
  | nil => rfl
  | cons c _ ih => simp [xor5_cons, ih]
  | swap c d _ =>
    simp only [List.flatMap_cons, List.cons_append, List.nil_append, xor5_cons]
    ac_rfl
  | trans _ _ ih₁ ih₂ => exact ih₁.trans ih₂

/-- Settles O12: the groups are the bytes of the tag, and XOR does not depend on their order. -/
theorem checksumDependsOnTagBytes : Obligations.ChecksumDependsOnTagBytes :=
  ⟨fun _ hp _ => xor5_eq_tagBytes hp, fun _ _ hp hq _ _ => xor5_eq_of_hex10_eq hp hq,
    fun _ _ => xor5_flatMap_perm, by decide, by decide, by decide⟩

/-! ### The digits of a checksum (R164) -/

/-- Groups are equal exactly when their digits are. -/
theorem hex2_eq_hex2_iff {a b c d : Byte} : hex2 a b = hex2 c d ↔ hexval a = hexval c ∧ hexval b = hexval d := by
  rw [← BitVec.toNat_inj, ← BitVec.toNat_inj, ← BitVec.toNat_inj, toNat_hex2, toNat_hex2]
  omega

/-- A checksum group matches exactly when each digit has the value of the character of the checksum (R164). -/
theorem xor5_eq_hex2_iff {p : List Byte} {c0 c1 : Byte} :
    xor5 p = hex2 c0 c1 ↔ hexval c0 = hexval (hexChar ((xor5 p).extractLsb' 4 4)) ∧
      hexval c1 = hexval (hexChar ((xor5 p).extractLsb' 0 4)) := by
  rw [← hex2_eq_hex2_iff, hex2_byteChars, eq_comm]

end Sys2Proof

namespace Sys2Proof.Machine

/-! ### VERIFY (R161, R164) -/

theorem allHex_append_pair (p : List Byte) (c0 c1 : Byte) :
    allHex (p ++ [c0, c1]) = (allHex p && isHex c0 && isHex c1) := by
  simp [allHex_append, Bool.and_assoc]

theorem exec_verify_of_hex {p : List Byte} {c0 c1 : Byte} (h : allHex (p ++ [c0, c1]) = true) (s : State) :
    exec (.verify p c0 c1) s =
      .next { s with respLog := s.respLog ++ [.verifyResult (decide (xor5 p = hex2 c0 c1))] } := by
  rw [allHex_append_pair] at h
  simp only [exec, execVerify, h, if_true, beq_eq_decide]
  rfl

theorem exec_verify_of_nonhex {p : List Byte} {c0 c1 : Byte} (h : allHex (p ++ [c0, c1]) = false) (s : State) :
    exec (.verify p c0 c1) s = .next { s with refusals := s.refusals ++ [.verifyNonhex] } := by
  rw [allHex_append_pair] at h
  simp only [exec, execVerify, h]
  rfl

/-- Settles O13: the answer compares the XOR of the five groups, and the refusal needs one bad character. -/
theorem verifyAnswersOrRefuses : Obligations.VerifyAnswersOrRefuses := by
  intro s p0 p1 p2 p3 p4 p5 p6 p7 p8 p9 c0 c1 p ok
  refine ⟨fun hhex => ?_, fun ⟨b, hmem, hbad⟩ => exec_verify_of_nonhex ?_ s⟩
  · rw [exec_verify_of_hex (allHex_eq_true_iff.mpr hhex), xor5_tenChars]
  · exact List.all_eq_false.mpr ⟨b, hmem, by simp [hbad]⟩

/-- Settles O14: each answer is read off the values of the two digits. -/
theorem verifySoundAndDigitSensitive : Obligations.VerifySoundAndDigitSensitive := by
  intro s p d _ hp hd hi lo answer
  have hanswer : ∀ c0 c1, isHex c0 = true → isHex c1 = true →
      exec (.verify p c0 c1) s = answer (decide (hexval c0 = hexval hi ∧ hexval c1 = hexval lo)) := by
    intro c0 c1 h0 h1
    rw [exec_verify_of_hex (by simp [allHex_append_pair, hp, h0, h1])]
    simp only [xor5_eq_hex2_iff, answer, hi, lo]
  have hhi : isHex hi = true := isHex_hexChar _
  have hlo : isHex lo = true := isHex_hexChar _
  refine ⟨?_, fun hne => ?_, fun hne => ?_, fun heq => ?_, fun heq => ?_⟩
  · simp [hanswer hi lo hhi hlo]
  · simp [hanswer d lo hd hlo, hne]
  · simp [hanswer hi d hhi hd, hne]
  · simp [hanswer d lo hd hlo, heq]
  · simp [hanswer hi d hhi hd, heq]

/-! ### The decoder's use of the checksum (R165, R166) -/

/-- Settles O15: with hexadecimal checksum characters, the decoder's last check is VERIFY's comparison. -/
theorem decoderAgreesWithVerify : Obligations.DecoderAgreesWithVerify := by
  intro s u body hphase hbody hlen hpayload
  have hmatches := checksumMatches_iff (hlen ▸ s.cfg.twelve_le_bodyLength)
  have hexec := exec_bodyAnswer_bytes hphase
  rw [State.bodyAnswerBytes, ← hbody, State.endCall_eq] at hexec
  refine ⟨_, _, _, hexec, rfl, fun henabled h0 h1 => ⟨_, exec_verify_of_hex ?_ u, fun hok => ?_, fun hbad => ?_⟩,
    fun hdisabled => ?_⟩
  · rw [allHex_append_pair, hpayload, h0, h1]
    rfl
  · exact frameStatus_of_good hlen.ge hpayload fun _ => hmatches.mpr ⟨h0, h1, of_decide_eq_true hok⟩
  · refine frameStatus_of_mismatch hlen.ge hpayload henabled (Bool.eq_false_iff.mpr fun hgood => ?_)
    obtain ⟨-, -, heq⟩ := hmatches.mp hgood
    exact of_decide_eq_false hbad heq
  · exact frameStatus_of_good hlen.ge hpayload fun henabled => by simp [hdisabled] at henabled

/-- Of a hexadecimal payload the status reads the checksum only. -/
theorem frameStatus_append_congr {cfg : Profile} {p q : List Byte} (hp : p.length = 10) (hq : q.length = 10)
    (hphex : allHex p = true) (hqhex : allHex q = true) (hxor : xor5 q = xor5 p) (tail : List Byte) :
    frameStatus cfg (q ++ tail) = frameStatus cfg (p ++ tail) := by
  have hchk : checksumSlice (q ++ tail) = checksumSlice (p ++ tail) := by
    rw [checksumSlice, checksumSlice, List.drop_left' hq, List.drop_left' hp]
  have hmatch : checksumMatches (q ++ tail) = checksumMatches (p ++ tail) := by
    rw [checksumMatches, checksumMatches, hchk, payloadSlice_append hq, payloadSlice_append hp, hxor]
  simp only [frameStatus, hmatch, List.length_append, hp, hq, payloadSlice_append, hphex, hqhex]

/-- Settles O16: the two masks cancel in the checksum, and one of them shows in its byte of the tag. -/
theorem equalMasksGoUndetected : Obligations.EqualMasksGoUndetected := by
  intro p q tail j k m cfg hp hq hphex hqhex hj hk hne hmask
  have hxor : xor5 q = xor5 p := by
    calc xor5 q = xorFive (payloadGroup q) := xor5_eq_xorFive_payloadGroup hq
      _ = xorFive (payloadGroup p) ^^^ xorFive (fun g => if g = j ∨ g = k then m else 0) := by
        rw [← xorFive_xor]; exact xorFive_congr hmask
      _ = xor5 p := by rw [xorFive_pair hj hk hne, ← xor5_eq_xorFive_payloadGroup hp]; exact BitVec.xor_zero
  refine ⟨hxor, frameStatus_append_congr hp hq hphex hqhex hxor tail, fun hm htag => hm ?_⟩
  have hgroup := hmask j hj
  rw [← hex10_group hq j hj, ← hex10_group hp j hj, htag, if_pos (.inl rfl)] at hgroup
  exact (BitVec.xor_right_inj _).mp (hgroup.symm.trans BitVec.xor_zero.symm)

end Sys2Proof.Machine

/-! ## PresenceDebouncer: the rows of its table, and how a leave is absorbed or confirmed -/

namespace Sys2Proof.Machine

/-! ### The rows of the table (R180) -/

/-- Writing the presence state that is already there changes nothing (row 3). -/
theorem State.setPst_self {s : State} {p : PresenceState} (h : s.pst = p) : s.setPst p = s := by
  subst h
  rfl

/-- Settles O32: in each row the state selects the branch of RAW_ENTER, whose writes are the stated record update. -/
theorem rawEnterResults : Obligations.RawEnterResults := by
  refine fun s t2 => ⟨fun hpst => ?absent, fun hpst => ?sameTag, fun t hpst hne => ?otherTag, fun d hpst => ?reentry,
    fun t d hpst hne => ?tagSwitch⟩ <;> simp only [exec, execRawEnter, hpst]
  case absent => rfl
  case sameTag => rw [if_true, State.setPst_self hpst]
  case otherTag => rw [if_neg hne]; rfl
  case reentry => rw [if_true]; rfl
  case tagSwitch => rw [if_neg hne]; simp [State.emit, State.setPst, State.cancel]

/-- Settles O33: row 2 is the two writes of the scheduling branch; in rows 7 and 8 RAW_LEAVE has no writes. -/
theorem rawLeaveResults : Obligations.RawLeaveResults := by
  refine fun s => ⟨fun t hpst => ?present, fun hpst => ?absent, fun t d hpst => ?debouncing⟩ <;>
    simp only [exec, execRawLeave, hpst]
  case present => rfl

/-- Settles O34: the live timer is due, so only the comparison with `pst` is left to decide. -/
theorem graceExpiredResults : Obligations.GraceExpiredResults := by
  intro s t d hlive hdue
  refine ⟨fun hpst => ?confirmed, fun hpst => ?unmatched⟩ <;>
    simp only [exec, execGraceExpired, hlive, hdue, hpst, if_true, if_false]
  case confirmed => rfl
  case unmatched => rfl

/-- The live timer does not fire before its deadline (R189). -/
theorem exec_graceExpired_early {s : State} {t : Tag} {d : Ticks} (hlive : s.tmr = some ⟨t, d⟩) (hearly : s.now < d) :
    exec (.graceExpired t d) s = .fault .deadlineNotReached := by
  simp only [exec, execGraceExpired, hlive, if_true, if_neg (Nat.not_le_of_lt hearly)]

/-- Settles O35: under the timer invariant the stale identity is not that of the live timer either. -/
theorem staleFireChangesNothing : Obligations.StaleFireChangesNothing := by
  refine fun s t d hstale => ⟨fun hinv => ?_, fun u hexec => ?_⟩
  · have hdead : s.tmr ≠ some ⟨t, d⟩ := mt (hinv.tmr_eq_some_iff t d).mp hstale
    simp only [exec, execGraceExpired, if_neg hdead, if_neg hstale]
  · obtain ⟨-, hpst, -⟩ | ⟨-, -, rfl⟩ | ⟨-, -, rfl⟩ := execGraceExpired_next hexec
    · exact absurd hpst hstale
    · exact .inr rfl
    · exact .inl rfl

/-- Settles O36: an enabled fire is that of the debouncing state and moves it to Absent; a fire that is not enabled is
stale, or faults. -/
theorem fireEnabledFromDeadline : Obligations.FireEnabledFromDeadline := by
  refine fun s t d hinv => ⟨⟨?effect, ?enabled⟩, exec_graceExpired_early⟩
  case effect =>
    rintro ⟨u, hexec, hmoved⟩
    obtain ⟨henabled, -, -⟩ | ⟨henabled, -, -⟩ | ⟨-, -, rfl⟩ := execGraceExpired_next hexec
    · exact henabled
    · exact henabled
    · exact absurd rfl hmoved
  case enabled =>
    rintro ⟨hlive, hdue⟩
    have hpst := (hinv.tmr_eq_some_iff t d).mp hlive
    refine ⟨_, (graceExpiredResults s t d hlive hdue).1 hpst, fun heq => ?_⟩
    have habsent : PresenceState.absent = s.pst := congrArg State.pst heq
    simp [hpst] at habsent

/-- Settles O46: the fire leaves Absent, from which RAW_ENTER is row 1; without the fire RAW_ENTER is row 4. -/
theorem deadlineRaceHasBothOrders : Obligations.DeadlineRaceHasBothOrders := by
  intro s t d hpst hlive hdue
  have hfire := (graceExpiredResults s t d hlive hdue).1 hpst
  obtain ⟨hfromAbsent, -⟩ := rawEnterResults
    { s with pst := .absent, tmr := none, events := s.events ++ [.leave t] } t
  obtain ⟨-, -, -, hreentry, -⟩ := rawEnterResults s t
  constructor
  · rw [execAll_cons hfire, execAll_cons (hfromAbsent rfl), execAll]
    simp
  · rw [execAll_cons (hreentry d hpst), execAll]

/-! ### What a step does to the presence state and to the event log -/

theorem exec_keeps_events {i : Instr} (hi : i.isDebouncerStep = false) {s u : State} (h : exec i s = .next u) :
    u.events = s.events := by
  obtain ⟨-, -, -, -, hevents, -⟩ := writersOfEachField i s u h
  simpa [hi] using hevents

/-- The other units leave the debouncer's fields alone. -/
theorem exec_keeps_presence {i : Instr} (hi : i.isDebouncerStep = false) (hreset : ∀ p, i ≠ .reset p) {s u : State}
    (h : exec i s = .next u) : u.pst = s.pst ∧ u.tmr = s.tmr ∧ u.events = s.events := by
  obtain ⟨-, -, hpst, htmr, -⟩ := writersOfEachField i s u h
  exact ⟨by simpa [hi, hreset] using hpst, by simpa [hi, hreset] using htmr, exec_keeps_events hi h⟩

theorem exec_next_unique {i : Instr} {s u v : State} (hu : exec i s = .next u) (hv : exec i s = .next v) : u = v :=
  Host.Outcome.next.inj (hu.symm.trans hv)

theorem exec_now_le {i : Instr} {s u : State} (h : exec i s = .next u) : s.now ≤ u.now := by
  obtain ⟨-, -, -, -, -, -, -, -, -, hnow, -⟩ := writersOfEachField i s u h
  exact hnow

/-- Settles O41: RAW_ENTER leads to Present, RAW_LEAVE to Debouncing of the tag, a fire in Present writes no presence
state, and RESET writes Absent. -/
theorem presentStaysOrDebounces : Obligations.PresentStaysOrDebounces := by
  intro i s u t hexec hpst
  cases i with
  | rawEnter t2 =>
    have hpresent : u.pst = .present t2 := by
      obtain ⟨-, rfl⟩ | ⟨-, rfl⟩ | ⟨_, -, -, rfl⟩ | ⟨_, -, rfl⟩ | ⟨_, _, -, -, rfl⟩ := execRawEnter_next hexec <;> rfl
    exact ⟨fun _ => .inl ⟨t2, hpresent⟩, by simp⟩
  | rawLeave =>
    obtain rfl := exec_next_unique hexec ((rawLeaveResults s).1 t hpst)
    exact ⟨fun _ => .inr ⟨_, rfl⟩, by simp⟩
  | graceExpired t1 d =>
    have hkept : u.pst = s.pst := by
      obtain rfl | rfl := (staleFireChangesNothing s t1 d (by simp [hpst])).2 u hexec <;> rfl
    exact ⟨fun _ => .inl ⟨t, hkept.trans hpst⟩, by simp⟩
  | reset p =>
    obtain rfl := execReset_next hexec
    exact ⟨fun hno => absurd rfl (hno p), fun _ => rfl⟩
  | _ =>
    obtain ⟨hkept, -, -⟩ := exec_keeps_presence rfl (by simp) hexec
    exact ⟨fun _ => .inl ⟨t, hkept.trans hpst⟩, by simp⟩

/-- A step emits at most one event, except for RAW_ENTER of another tag while debouncing (row 5). -/
theorem exec_emits_one_or_switches {i : Instr} {s u : State} (hexec : exec i s = .next u) :
    u.events.length ≤ s.events.length + 1 ∨
    ∃ t d t2, s.pst = .debouncing t d ∧ i = .rawEnter t2 ∧ t2 ≠ t ∧ u.events = s.events ++ [.leave t, .enter t2] := by
  cases i with
  | rawEnter t2 =>
    obtain ⟨-, rfl⟩ | ⟨-, rfl⟩ | ⟨t, -, -, rfl⟩ | ⟨d, -, rfl⟩ | ⟨t, d, hpst, hne, rfl⟩ := execRawEnter_next hexec
    · exact .inl (by simp)
    · exact .inl (by simp)
    · exact .inl (by simp)
    · exact .inl (by simp)
    · exact .inr ⟨t, d, t2, hpst, rfl, hne, by simp⟩
  | rawLeave =>
    obtain ⟨t, -, rfl⟩ | ⟨-, rfl⟩ := execRawLeave_next hexec
    · exact .inl (by simp)
    · exact .inl (by simp)
  | graceExpired t d =>
    obtain ⟨-, -, rfl⟩ | ⟨-, -, rfl⟩ | ⟨-, -, rfl⟩ := execGraceExpired_next hexec
    · exact .inl (by simp)
    · exact .inl (by simp)
    · exact .inl (by simp)
  | _ => exact .inl (by simp [exec_keeps_events rfl hexec])

/-- Settles O42: two events are more than one, so the step is the tag switch. -/
theorem twoEventsOnlyOnTagSwitch : Obligations.TwoEventsOnlyOnTagSwitch := by
  intro i s u hexec
  obtain hone | ⟨t, d, t2, hpst, hi, hne, hevents⟩ := exec_emits_one_or_switches hexec
  · exact ⟨by omega, fun htwo => by omega⟩
  · exact ⟨by simp [hevents], fun _ => ⟨t, d, t2, hpst, hi, hne, hevents⟩⟩

/-! ### A leave from RAW_LEAVE to its confirmation (R195, R196, R197) -/

/-- The leave of `t` waits for its deadline `d`, and nothing was emitted since the event log was `log`. -/
structure LeavePending (t : Tag) (d : Ticks) (log : List PresenceEvent) (s : State) : Prop where
  pst : s.pst = .debouncing t d
  tmr : s.tmr = some ⟨t, d⟩
  events : s.events = log

/-- The deadline `d` has passed and the leave of `t` was confirmed, as the only event since the log was `log`. -/
structure LeaveConfirmed (t : Tag) (d : Ticks) (log : List PresenceEvent) (s : State) : Prop where
  pst : s.pst = .absent
  tmr : s.tmr = none
  events : s.events = log ++ [.leave t]
  due : d ≤ s.now

/-- RAW_LEAVE of a present tag (row 2). -/
theorem leavePending_of_rawLeave {s u : State} {t : Tag} (hpst : s.pst = .present t)
    (hexec : exec .rawLeave s = .next u) :
    LeavePending t (s.now + s.cfg.grace) s.events u := by
  obtain rfl := exec_next_unique hexec ((rawLeaveResults s).1 t hpst)
  exact ⟨rfl, rfl, rfl⟩

section
variable {t : Tag} {d : Ticks} {log : List PresenceEvent} {i : Instr} {s u : State}

theorem LeavePending.timerInv (h : LeavePending t d log s) : s.TimerInv := by
  rw [State.TimerInv, h.pst, h.tmr]
  rfl

theorem LeaveConfirmed.timerInv (h : LeaveConfirmed t d log s) : s.TimerInv := by
  rw [State.TimerInv, h.pst, h.tmr]
  rfl

/-- The fire of a pending leave confirms it. -/
theorem LeavePending.confirmed_of_fire (h : LeavePending t d log s) (hexec : exec (.graceExpired t d) s = .next u) :
    LeaveConfirmed t d log u := by
  obtain ⟨⟨-, hdue⟩, -, rfl⟩ | ⟨-, hstale, -⟩ | ⟨-, hstale, -⟩ := execGraceExpired_next hexec
  · exact ⟨rfl, rfl, by simp [h.events], hdue⟩
  · exact absurd h.pst hstale
  · exact absurd h.pst hstale

/-- Entry edges and RESET aside, only its own fire ends a pending leave. -/
theorem LeavePending.exec_cases (h : LeavePending t d log s) (henter : ∀ t2, i ≠ .rawEnter t2)
    (hreset : ∀ p, i ≠ .reset p) (hexec : exec i s = .next u) :
    LeavePending t d log u ∨ i = .graceExpired t d ∧ LeaveConfirmed t d log u := by
  cases i with
  | rawEnter t2 => exact absurd rfl (henter t2)
  | reset p => exact absurd rfl (hreset p)
  | rawLeave =>
    obtain ⟨-, -, hnoop⟩ := rawLeaveResults s
    obtain rfl := exec_next_unique hexec (hnoop t d h.pst)
    exact .inl h
  | graceExpired t1 d1 =>
    by_cases hown : s.pst = .debouncing t1 d1
    · obtain ⟨rfl, rfl⟩ : t = t1 ∧ d = d1 := by simpa [h.pst] using hown
      exact .inr ⟨rfl, h.confirmed_of_fire hexec⟩
    · obtain rfl := exec_next_unique hexec ((staleFireChangesNothing s t1 d1 hown).1 h.timerInv)
      exact .inl h
  | _ =>
    obtain ⟨hpst, htmr, hevents⟩ := exec_keeps_presence rfl hreset hexec
    exact .inl ⟨hpst.trans h.pst, htmr.trans h.tmr, hevents.trans h.events⟩

/-- Entry edges and RESET aside, a confirmed leave stays confirmed: no second `Leave` follows (R196). -/
theorem LeaveConfirmed.exec_keeps (h : LeaveConfirmed t d log s) (henter : ∀ t2, i ≠ .rawEnter t2)
    (hreset : ∀ p, i ≠ .reset p) (hexec : exec i s = .next u) : LeaveConfirmed t d log u := by
  cases i with
  | rawEnter t2 => exact absurd rfl (henter t2)
  | reset p => exact absurd rfl (hreset p)
  | rawLeave =>
    obtain ⟨-, hnoop, -⟩ := rawLeaveResults s
    obtain rfl := exec_next_unique hexec (hnoop h.pst)
    exact h
  | graceExpired t1 d1 =>
    have hstale := (staleFireChangesNothing s t1 d1 (by simp [h.pst])).1 h.timerInv
    obtain rfl := exec_next_unique hexec hstale
    exact h
  | _ =>
    obtain ⟨hpst, htmr, hevents⟩ := exec_keeps_presence rfl hreset hexec
    exact ⟨hpst.trans h.pst, htmr.trans h.tmr, hevents.trans h.events, h.due.trans (exec_now_le hexec)⟩

end

/-! ### A leave along a finite sequence of steps -/

theorem execAll_cons_eq_some {i : Instr} {rest : List Instr} {s u : State} (h : execAll (i :: rest) s = some u) :
    ∃ t, exec i s = .next t ∧ execAll rest t = some u := by
  rw [execAll] at h
  split at h
  · exact ⟨_, ‹_›, h⟩
  · cases h
  · cases h

/-- What each of the steps keeps holds at their end. -/
theorem execAll_keeps {P : State → Prop} {moves : List Instr} {s u : State}
    (hstep : ∀ i ∈ moves, ∀ a b, P a → exec i a = .next b → P b) (hs : P s) (h : execAll moves s = some u) : P u := by
  induction moves generalizing s with
  | nil => cases h; exact hs
  | cons i rest ih =>
    obtain ⟨t, hexec, hrest⟩ := execAll_cons_eq_some h
    obtain ⟨hi, htail⟩ := List.forall_mem_cons.mp hstep
    exact ih htail (hi s t hs hexec) hrest

/-- A pending leave stays pending or is confirmed, as long as no entry edge and no RESET comes. -/
theorem LeavePending.execAll_cases {t : Tag} {d : Ticks} {log : List PresenceEvent} {moves : List Instr} {s u : State}
    (h : LeavePending t d log s) (hmoves : ∀ i ∈ moves, (∀ t2, i ≠ .rawEnter t2) ∧ ∀ p, i ≠ .reset p)
    (hall : execAll moves s = some u) : LeavePending t d log u ∨ LeaveConfirmed t d log u := by
  refine execAll_keeps (P := fun a => LeavePending t d log a ∨ LeaveConfirmed t d log a)
    (fun i hi a b hprogress hexec => ?_) (.inl h) hall
  obtain ⟨henter, hreset⟩ := hmoves i hi
  obtain hpending | hconfirmed := hprogress
  · exact (hpending.exec_cases henter hreset hexec).imp_right And.right
  · exact .inr (hconfirmed.exec_keeps henter hreset hexec)

/-- Settles O43: a confirmed leave is one whose deadline has passed, so before the deadline the leave is still pending
and RAW_ENTER of its tag is row 4. -/
theorem flickerIsAbsorbed : Obligations.FlickerIsAbsorbed := by
  intro s u t moves hpst _ hmoves hall hearly
  obtain ⟨a, hleave, hrest⟩ := execAll_cons_eq_some hall
  obtain hpending | hconfirmed := (leavePending_of_rawLeave hpst hleave).execAll_cases hmoves hrest
  · obtain ⟨-, -, -, hreentry, -⟩ := rawEnterResults u t
    exact ⟨hpending.events, hreentry _ hpending.pst⟩
  · exact absurd hconfirmed.due (Nat.not_le_of_lt hearly)

/-- Settles O45: without a fire the leave stays pending, and RAW_ENTER of another tag is row 5. -/
theorem tagSwitchWhileDebouncing : Obligations.TagSwitchWhileDebouncing := by
  intro s u t1 t2 moves hpst _ hne hmoves hall
  obtain ⟨a, hleave, hrest⟩ := execAll_cons_eq_some hall
  have hpending : LeavePending t1 (s.now + s.cfg.grace) s.events u := by
    refine execAll_keeps (fun i hi a b hpending hexec => ?_) (leavePending_of_rawLeave hpst hleave) hrest
    obtain ⟨henter, hreset, hnofire⟩ := hmoves i hi
    exact (hpending.exec_cases henter hreset hexec).resolve_right fun ⟨hfire, _⟩ => hnofire _ _ hfire
  obtain ⟨-, -, -, -, hswitch⟩ := rawEnterResults u t2
  refine ⟨_, hswitch t1 _ hpending.pst hne, rfl, rfl, by rw [hpending.events], ?notEnabled, ?stale⟩
  case notEnabled => rintro d ⟨hlive, -⟩; cases hlive
  case stale => exact (staleFireChangesNothing _ t1 _ (by simp)).1 rfl

/-! ### A leave along an infinite run (R196) -/

section
variable {run : Nat → State} {moves : Nat → Instr}

theorem IsRun.now_mono (hrun : IsRun run moves) : Monotone fun n => (run n).now :=
  monotone_nat_of_le_succ fun n => exec_now_le (hrun n)

/-- A leave that stays pending keeps its fire enabled from the deadline on, so a fair timer confirms it. -/
theorem IsRun.leave_confirmed {t : Tag} {d : Ticks} {log : List PresenceEvent} {m : Nat} (hrun : IsRun run moves)
    (hfair : TimerFair run moves) (hmoves : ∀ n, (∀ t2, moves n ≠ .rawEnter t2) ∧ ∀ p, moves n ≠ .reset p)
    (hdue : ∃ n, d ≤ (run n).now) (hleave : LeavePending t d log (run m)) : ∃ n, LeaveConfirmed t d log (run n) := by
  by_contra! hnever
  have hpending : ∀ k, m ≤ k → LeavePending t d log (run k) := by
    refine Nat.le_induction hleave fun k _ ih => ?_
    obtain ⟨henter, hreset⟩ := hmoves k
    exact (ih.exec_cases henter hreset (hrun k)).resolve_right fun ⟨_, hconfirmed⟩ => hnever _ hconfirmed
  obtain ⟨n, hn⟩ := hdue
  have henabled : ∀ k, max n m ≤ k → (run k).FireEnabled t d := fun k hk =>
    ⟨(hpending k (le_of_max_le_right hk)).tmr, hn.trans (hrun.now_mono (le_of_max_le_left hk))⟩
  obtain ⟨k, hk, hfire⟩ := hfair _ t d henabled
  have hexec : exec (.graceExpired t d) (run k) = .next (run (k + 1)) := hfire ▸ hrun k
  exact hnever _ ((hpending k (le_of_max_le_right hk)).confirmed_of_fire hexec)

end

/-- Settles O44: the leave pending after RAW_LEAVE is confirmed, and stays so. -/
theorem confirmedLeaveIsEmittedOnce : Obligations.ConfirmedLeaveIsEmittedOnce := by
  intro run moves t hrun hfair hdue hpst _ hfirst hmoves
  have hleave : exec .rawLeave (run 0) = .next (run 1) := hfirst ▸ hrun 0
  obtain ⟨n, hconfirmed⟩ := hrun.leave_confirmed hfair hmoves hdue (leavePending_of_rawLeave hpst hleave)
  have hstays : ∀ k, n ≤ k → LeaveConfirmed t ((run 0).now + (run 0).cfg.grace) (run 0).events (run k) := by
    refine Nat.le_induction hconfirmed fun k _ ih => ?_
    obtain ⟨henter, hreset⟩ := hmoves k
    exact ih.exec_keeps henter hreset (hrun k)
  exact ⟨n, fun k hk => ⟨(hstays k hk).pst, (hstays k hk).events⟩⟩

end Sys2Proof.Machine

/-! ## EventDispatcher: the shape of the event log (R234) -/

namespace Sys2Proof.Machine

/-- No two `Leave` entries are adjacent: the entry before a `Leave` is an `Enter`. -/
theorem LeavesFollowEnters.leave_not_followed_by_leave {events : List PresenceEvent} (h : LeavesFollowEnters events)
    {n : Nat} {t : Tag} (hn : events[n]? = some (.leave t)) (u : Tag) : events[n + 1]? ≠ some (.leave u) := by
  intro hnext
  obtain ⟨m, hm, henter⟩ := h (n + 1) u hnext
  obtain rfl : n = m := Nat.succ.inj hm
  simp [hn] at henter

/-- From Absent only RAW_ENTER emits, and what it emits is an `Enter` (row 1). -/
theorem exec_absent_keeps_or_enters {i : Instr} {s u : State} (hpst : s.pst = .absent) (hexec : exec i s = .next u) :
    u.pst = .absent ∧ u.events = s.events ∨ ∃ t, u.events = s.events ++ [.enter t] := by
  cases i with
  | rawEnter t2 =>
    obtain ⟨hfromAbsent, -⟩ := rawEnterResults s t2
    obtain rfl := exec_next_unique hexec (hfromAbsent hpst)
    exact .inr ⟨t2, rfl⟩
  | rawLeave =>
    obtain ⟨-, hnoop, -⟩ := rawLeaveResults s
    obtain rfl := exec_next_unique hexec (hnoop hpst)
    exact .inl ⟨hpst, rfl⟩
  | graceExpired t d =>
    obtain rfl | rfl := (staleFireChangesNothing s t d (by simp [hpst])).2 u hexec <;> exact .inl ⟨hpst, rfl⟩
  | reset p =>
    obtain rfl := execReset_next hexec
    exact .inl ⟨rfl, rfl⟩
  | _ =>
    obtain ⟨hkept, -, hevents⟩ := exec_keeps_presence rfl (by simp) hexec
    exact .inl ⟨hkept.trans hpst, hevents⟩

/-- Absent without an event since the log was `log`, or the first event since then is an `Enter`. -/
def AbsentOrEntered (log : List PresenceEvent) (s : State) : Prop :=
  s.pst = .absent ∧ s.events = log ∨ ∃ t, log ++ [.enter t] <+: s.events

theorem absentOrEntered_of_reset {p : Profile} {s u : State} (hexec : exec (.reset p) s = .next u) :
    AbsentOrEntered s.events u := by
  obtain rfl := execReset_next hexec
  exact .inl ⟨rfl, rfl⟩

/-- The log only grows, so a first event that is an `Enter` remains the first. -/
theorem AbsentOrEntered.exec_keeps {log : List PresenceEvent} {i : Instr} {s u : State} (h : AbsentOrEntered log s)
    (hexec : exec i s = .next u) : AbsentOrEntered log u := by
  obtain ⟨hpst, rfl⟩ | ⟨t, hfirst⟩ := h
  · exact (exec_absent_keeps_or_enters hpst hexec).imp_right fun ⟨t, hevents⟩ => ⟨t, by simp [hevents]⟩
  · obtain ⟨hgrows, -, -⟩ := exec_logs_grow hexec
    exact .inr ⟨t, hfirst.trans hgrows⟩

/-- The first event after a RESET is an `Enter`, whatever steps follow it. -/
theorem first_event_after_reset {p : Profile} {moves : List Instr} {s u : State}
    (hall : execAll (.reset p :: moves) s = some u) :
    u.events = s.events ∨ ∃ t tail, u.events = s.events ++ .enter t :: tail := by
  obtain ⟨a, hreset, hrest⟩ := execAll_cons_eq_some hall
  have hkept : AbsentOrEntered s.events u :=
    execAll_keeps (fun _ _ _ _ h hexec => h.exec_keeps hexec) (absentOrEntered_of_reset hreset) hrest
  obtain ⟨-, hevents⟩ | ⟨t, tail, hevents⟩ := hkept
  · exact .inl hevents
  · exact .inr ⟨t, tail, by simp [← hevents]⟩

/-- Settles O40: the invariant of reachable states gives the shape of the log, a RESET leaves Absent, from which the first
event is an `Enter`, and a replaced tag is row 3. -/
theorem eventLogShape : Obligations.EventLogShape := by
  refine ⟨fun s hs => ⟨?lastEvent, hs.inv.leaves, fun n t u hn => hs.inv.leaves.leave_not_followed_by_leave hn u⟩,
    fun s u p moves => first_event_after_reset, fun s t t2 hpst hne => ?replaced, fun s p => ⟨_, rfl, rfl⟩⟩
  case lastEvent =>
    rintro t (hpst | ⟨d, hpst⟩) <;> exact hs.inv.lastEvent t (by rw [hpst]; rfl)
  case replaced =>
    obtain ⟨-, -, hotherTag, -⟩ := rawEnterResults s t2
    exact ⟨_, hotherTag t hpst hne, rfl⟩

end Sys2Proof.Machine

/-! ## Host interfaces: the ByteSource's answers, arrivals and time, and the end of a decode call under fairness -/

namespace Sys2Proof.Machine

/-! ### Arrivals and time (R251, R260) -/

/-- Settles O47: each of the two steps is one write, enabled in every state. -/
theorem arrivalAndTimeResults : Obligations.ArrivalAndTimeResults :=
  ⟨fun _ _ => rfl, fun _ _ => rfl⟩

/-! ### When an answer is taken, and where it stops (R252, R253) -/

theorem exec_next_or_fault (i : Instr) (s : State) : (∃ t, exec i s = .next t) ∨ ∃ f, exec i s = .fault f := by
  cases h : exec i s with
  | next t => exact .inl ⟨t, rfl⟩
  | fault f => exact .inr ⟨f, rfl⟩
  | refused r => exact absurd h (exec_ne_refused i s r)

section
variable {s : State} {r : Option Byte} {body : List Byte} {f : Fault}

theorem exec_startAnswer_of_fault (h : s.startAnswerFault r = some f) : exec (.startAnswer r) s = .fault f := by
  simp [exec, execStartAnswer, h]

theorem exec_bodyAnswer_of_fault (h : s.bodyAnswerFault body = some f) : exec (.bodyAnswer body) s = .fault f := by
  simp [exec, execBodyAnswer, h]

theorem exec_startAnswer_taken_iff : (∃ t, exec (.startAnswer r) s = .next t) ↔ s.startAnswerFault r = none := by
  refine ⟨fun ⟨t, h⟩ => (execStartAnswer_next h).1, fun henabled => ?_⟩
  refine (exec_next_or_fault _ s).resolve_right fun ⟨f, h⟩ => ?_
  simp [execStartAnswer_fault h] at henabled

theorem exec_bodyAnswer_taken_iff : (∃ t, exec (.bodyAnswer body) s = .next t) ↔ s.bodyAnswerFault body = none :=
  ⟨fun ⟨_, h⟩ => (execBodyAnswer_next h).1, fun henabled => ⟨_, exec_bodyAnswer_of_admissible henabled⟩⟩

end

/-- Settles O19: the answer is taken where it has no fault, that is, where it is admissible. -/
theorem startAnswerAdmissibility : Obligations.StartAnswerAdmissibility := fun _ _ =>
  exec_startAnswer_taken_iff.trans State.startAnswerFault_eq_none_iff_admissible

/-- Settles O21: the answer is taken where it has no fault, that is, where it is admissible. -/
theorem bodyAnswerAdmissibility : Obligations.BodyAnswerAdmissibility := fun _ _ =>
  exec_bodyAnswer_taken_iff.trans State.bodyAnswerFault_eq_none_iff_admissible

/-- Settles O22: each premise selects the branch of the admissibility check that names its fault. -/
theorem inadmissibleAnswersStop : Obligations.InadmissibleAnswersStop := by
  refine ⟨fun s r hphase => exec_startAnswer_of_fault ?noStart, fun s hphase hfifo => exec_startAnswer_of_fault ?buffered,
    fun s hphase hfifo htimeout => exec_startAnswer_of_fault ?unbounded,
    fun s b hphase hhead => exec_startAnswer_of_fault ?notHead,
    fun s body hphase => exec_bodyAnswer_of_fault ?noBody, fun s body hphase hbody => exec_bodyAnswer_of_fault ?otherBody⟩
  case noStart => simp [State.startAnswerFault, hphase]
  case buffered =>
    obtain ⟨b, rest, hcons⟩ := List.exists_cons_of_ne_nil hfifo
    simp [State.startAnswerFault, hphase, hcons]
  case unbounded => simp [State.startAnswerFault, hphase, hfifo, htimeout]
  case notHead =>
    cases hfifo : s.fifo with
    | nil => simp [State.startAnswerFault, hphase, hfifo]
    | cons c rest =>
      have hne : b ≠ c := by rintro rfl; simp [hfifo] at hhead
      simp [State.startAnswerFault, hphase, hfifo, hne]
  case noBody => simp [State.bodyAnswerFault, hphase]
  case otherBody =>
    have hne : body ≠ s.bodyAnswerBytes := hbody
    simp [State.bodyAnswerFault, hphase, hne]

/-! ### The ANSWER statement (R255) -/

/-- The answers that are taken: the head of the buffer to the start request, the body bytes to the body request. -/
theorem exec_answer_taken_iff {i : Instr} {s : State} :
    (i.isAnswer = true ∧ ∃ t, exec i s = .next t) ↔
      (s.phase = .waitStart ∧ (s.fifo = [] → s.cfg.primaryTimeout ≠ none) ∧ i = .startAnswer s.fifo.head?) ∨
        s.phase = .waitBody ∧ i = .bodyAnswer s.bodyAnswerBytes := by
  cases i with
  | startAnswer r =>
    rw [exec_startAnswer_taken_iff, State.startAnswerFault_eq_none]
    simp [Instr.isAnswer, and_comm]
  | bodyAnswer body =>
    rw [exec_bodyAnswer_taken_iff, State.bodyAnswerFault_eq_none]
    simp [Instr.isAnswer]
  | _ => simp [Instr.isAnswer]

theorem State.answer?_of_idle {s : State} (h : s.phase = .idle) : s.answer? = none := by
  simp [State.answer?, h]

theorem State.answer?_of_waitStart {s : State} (h : s.phase = .waitStart) :
    s.answer? = if s.fifo = [] → s.cfg.primaryTimeout ≠ none then some (.startAnswer s.fifo.head?) else none := by
  simp [State.answer?, State.startAnswerFault_eq_none, h]

theorem State.answer?_of_waitBody {s : State} (h : s.phase = .waitBody) :
    s.answer? = some (.bodyAnswer s.bodyAnswerBytes) := by
  simp [State.answer?, h]

/-- Settles O57: in each phase ANSWER is the one answer that is taken there, if there is one. -/
theorem answerStatementIsTheAdmissibleOne : Obligations.AnswerStatementIsTheAdmissibleOne := by
  intro s
  simp only [exec_answer_taken_iff, State.Answerable]
  cases hphase : s.phase with
  | idle => simp [State.answer?_of_idle hphase]
  | waitStart => simp [State.answer?_of_waitStart hphase, imp_iff_not_or, eq_comm]
  | waitBody => simp [State.answer?_of_waitBody hphase, eq_comm]

/-! ### The phases of a decode call in progress (R133) -/

section
variable {i : Instr} {s t : State}

/-- An answer leads from WAIT_START to WAIT_BODY or IDLE, and from WAIT_BODY to IDLE. -/
theorem exec_answer_phase (hi : i.isAnswer = true) (h : exec i s = .next t) :
    s.phase = .waitStart ∧ t.phase = .waitBody ∨ t.phase = .idle := by
  cases i with
  | startAnswer r =>
    obtain ⟨henabled, ⟨-, rfl⟩ | ⟨-, rfl⟩ | ⟨_, -, -, rfl⟩⟩ := execStartAnswer_next h
    · exact .inr rfl
    · exact .inl ⟨(State.startAnswerFault_eq_none.mp henabled).1, rfl⟩
    · exact .inr rfl
  | bodyAnswer body =>
    obtain ⟨-, rfl⟩ := execBodyAnswer_next h
    exact .inr rfl
  | _ => cases hi

/-- Without an answer, a call in progress keeps its phase, unless RESET abandons it. -/
theorem exec_keeps_waiting_phase (hi : i.isAnswer = false) (hbusy : s.phase ≠ .idle) (h : exec i s = .next t) :
    t.phase = s.phase ∨ t.phase = .idle := by
  obtain ⟨st, hends⟩ | ⟨hkeeps, -⟩ := exec_keeps_or_ends h
  · exact .inr hends.phase_eq_idle
  · cases hkeeps with
    | start hidle _ => exact absurd hidle hbusy
    | marker _ _ => cases hi
    | reset hidle => exact .inr hidle
    | samePhase hsame => exact .inl hsame

theorem exec_waitBody_phase (hphase : s.phase = .waitBody) (h : exec i s = .next t) :
    t.phase = .waitBody ∨ t.phase = .idle := by
  cases hi : i.isAnswer with
  | true => exact (exec_answer_phase hi h).imp_left And.right
  | false => exact hphase ▸ exec_keeps_waiting_phase hi (by simp [hphase]) h

/-- Only an answer takes bytes off the buffer. -/
theorem exec_keeps_buffered (hi : i.isAnswer = false) (h : exec i s = .next t) : s.fifo <+: t.fifo := by
  obtain ⟨-, -, -, -, -, -, hwriter, -⟩ := writersOfEachField i s t h
  by_cases hsame : t.fifo = s.fifo
  · simp [hsame]
  · obtain hanswer | ⟨b, rfl⟩ := hwriter hsame
    · simp [hi] at hanswer
    · obtain rfl := execByteArrive_next h
      simp

theorem State.Answerable.phase_ne_idle (h : s.Answerable) : s.phase ≠ .idle := by
  obtain hphase | ⟨hphase, -⟩ := h <;> simp [hphase]

theorem State.answerable_of_busy (hbusy : s.phase ≠ .idle) (hsource : s.fifo ≠ [] ∨ s.cfg.primaryTimeout ≠ none) :
    s.Answerable := by
  cases hphase : s.phase with
  | idle => exact absurd hphase hbusy
  | waitStart => exact .inr ⟨hphase, hsource⟩
  | waitBody => exact .inl hphase

/-- RESET aside, a request that can be answered can be answered until its call ends. -/
theorem State.Answerable.exec_keeps (h : s.Answerable) (hreset : ∀ p, i ≠ .reset p) (hexec : exec i s = .next t) :
    t.phase = .idle ∨ t.Answerable := by
  cases hi : i.isAnswer with
  | true => exact (exec_answer_phase hi hexec).symm.imp_right fun ⟨_, hbody⟩ => .inl hbody
  | false =>
    refine (exec_keeps_waiting_phase hi h.phase_ne_idle hexec).symm.imp_right fun hsame => ?_
    obtain hbody | ⟨hstart, hsource⟩ := h
    · exact .inl (hsame.trans hbody)
    · obtain ⟨hcfg, -⟩ := writersOfEachField i s t hexec
      have hcfg_eq : t.cfg = s.cfg := by simpa [hreset] using hcfg
      have hbuffered : s.fifo ≠ [] → t.fifo ≠ [] := (exec_keeps_buffered hi hexec).ne_nil
      exact .inr ⟨hsame.trans hstart, hsource.imp hbuffered fun htimeout => by rwa [hcfg_eq]⟩

end

/-! ### A decode call along a fair run (R256) -/

section
variable {run : Nat → State} {moves : Nat → Instr} {m : Nat} (hrun : IsRun run moves) (hfair : ByteSourceFair run moves)
  (hreset : ∀ n p, moves n ≠ .reset p)
include hrun hfair hreset

/-- A call that never ends leaves its request answerable, so a fair ByteSource answers it. -/
theorem IsRun.exists_answer (hbusy : ∀ n, (run n).phase ≠ .idle) (h : (run m).Answerable) :
    ∃ k, m ≤ k ∧ (moves k).isAnswer = true :=
  hfair m (Nat.le_induction h fun k _ ih => (ih.exec_keeps (hreset k) (hrun k)).resolve_left (hbusy (k + 1)))

/-- Once the start marker was read, the next answer ends the call. -/
theorem IsRun.idle_of_waitBody (h : (run m).phase = .waitBody) : ∃ n, (run n).phase = .idle := by
  by_contra! hbusy
  have hstays : ∀ k, m ≤ k → (run k).phase = .waitBody :=
    Nat.le_induction h fun k _ ih => (exec_waitBody_phase ih (hrun k)).resolve_right (hbusy (k + 1))
  obtain ⟨k, hk, hanswer⟩ := hrun.exists_answer hfair hreset hbusy (.inl h)
  obtain ⟨hstart, -⟩ | hidle := exec_answer_phase hanswer (hrun k)
  · simp [hstays k hk] at hstart
  · exact hbusy (k + 1) hidle

/-- The answer to an answerable request ends the call or reads the start marker. -/
theorem IsRun.idle_of_answerable (h : (run m).Answerable) : ∃ n, (run n).phase = .idle := by
  by_contra! hbusy
  obtain ⟨k, -, hanswer⟩ := hrun.exists_answer hfair hreset hbusy h
  obtain ⟨-, hbody⟩ | hidle := exec_answer_phase hanswer (hrun k)
  · obtain ⟨n, hidle⟩ := hrun.idle_of_waitBody hfair hreset hbody
    exact hbusy n hidle
  · exact hbusy (k + 1) hidle

end

/-- Settles O31: with a primary timeout the request is answerable from the beginning, otherwise from the moment a byte is
buffered. -/
theorem fairDecodeCallEnds : Obligations.FairDecodeCallEnds := by
  intro run moves hrun hfair hreset hbusy hsource
  obtain htimeout | ⟨n, hbuffered⟩ := hsource
  · exact hrun.idle_of_answerable hfair hreset (State.answerable_of_busy hbusy (.inr htimeout))
  · by_cases hidle : (run n).phase = .idle
    · exact ⟨n, hidle⟩
    · exact hrun.idle_of_answerable hfair hreset (State.answerable_of_busy hidle (.inl hbuffered))

end Sys2Proof.Machine

/-! ## Exceptions: no status is fatal, the wait for a first byte, and the refusals -/

namespace Sys2Proof

/-! ### Which transactions are refused while decoding (R98, R285) -/

/-- A command word is refused for its opcode, or for its reserved bits when the opcode is assigned. -/
theorem decodeCommand_error {w : CommandWord} {r : RefusalReason} (h : decodeCommand w = .error r) :
    r = .illegalOpcode ∧ ¬AssignedOpcode (opField w) ∨
      r = .reservedBits ∧ AssignedOpcode (opField w) ∧ ReservedBitSet w := by
  by_cases hop : AssignedOpcode (opField w)
  · have hrefused : ¬∃ i, decodeCommand w = .ok i := by simp [h]
    have hreason : decodeCommand w = .error .reservedBits := (decodeCommand_of_assigned hop).resolve_right hrefused
    have hreserved : ReservedBitSet w := not_not.mp fun hclear =>
      hrefused ((exists_decodeCommand_eq_ok_iff hop).mpr hclear)
    exact .inr ⟨Except.error.inj (h.symm.trans hreason), hop, hreserved⟩
  · exact .inl ⟨Except.error.inj (h.symm.trans (decodeCommand_of_unassigned hop)), hop⟩

theorem exists_nonhex_of_allHex_eq_false {bytes : List Byte} (h : allHex bytes = false) :
    ∃ b ∈ bytes, isHex b = false := by
  simpa using List.all_eq_false.mp h

end Sys2Proof

namespace Sys2Proof.Machine

/-! ### After a status (R283) -/

/-- Settles O27: the step ended a call, and DECODE is accepted in IDLE. -/
theorem noDecodeErrorIsFatal : Obligations.NoDecodeErrorIsFatal := by
  intro i s t st tag h hresult
  obtain ⟨n, tag', rfl⟩ := exec_result_endsCall h hresult
  have hidle : ((s.consume n).endCall st tag').phase = .idle := State.endCall_phase ..
  exact ⟨hidle, exec_decode_of_idle hidle⟩

/-! ### The wait for a first byte (R286) -/

/-- Settles O30: neither answer is admissible before the arrival; after it the byte is the head of the buffer, and its
answer goes on to WAIT_BODY or ends the call. -/
theorem waitIsLiftedByArrival : Obligations.WaitIsLiftedByArrival := by
  intro s hphase htimeout hfifo
  refine ⟨fun r t h => ?_, fun body t h => ?_, fun b => ?_⟩
  · obtain ⟨-, -, hbounded⟩ := State.startAnswerFault_eq_none.mp (exec_startAnswer_taken_iff.mp ⟨t, h⟩)
    exact hbounded hfifo htimeout
  · obtain ⟨hbody, -⟩ := State.bodyAnswerFault_eq_none.mp (exec_bodyAnswer_taken_iff.mp ⟨t, h⟩)
    simp [hphase] at hbody
  · obtain ⟨u, hu, -⟩ := exec_startAnswer_single (s := s.arrive b) (c := b) hphase (by simp [hfifo])
    refine ⟨s.arrive b, u, rfl, hu, ?_⟩
    obtain ⟨-, hnext⟩ | hnext := exec_answer_phase rfl hu <;> simp [hnext]

/-! ### The refusals (R284, R285) -/

/-- The transactions that are refused in a state, each with its reason (R285). -/
inductive IsRefused (s : State) : Input → RefusalReason → Prop where
  | illegalOpcode {w : CommandWord} : ¬AssignedOpcode (opField w) → IsRefused s (.command w) .illegalOpcode
  | reservedBits {w : CommandWord} : AssignedOpcode (opField w) → ReservedBitSet w →
      IsRefused s (.command w) .reservedBits
  | decodeBusy {x : Input} : decode x = .ok .decode → s.phase ≠ .idle → IsRefused s x .decodeBusy
  | verifyNonhex {x : Input} {p : List Byte} {c0 c1 : Byte} : decode x = .ok (.verify p c0 c1) →
      allHex (p ++ [c0, c1]) = false → IsRefused s x .verifyNonhex

section
variable {s t : State} {x : Input}

theorem isRefused_of_decode_error {r : RefusalReason} (h : decode x = .error r) : IsRefused s x r := by
  cases x with
  | command w =>
    obtain ⟨rfl, hop⟩ | ⟨rfl, hop, hreserved⟩ := decodeCommand_error h
    · exact .illegalOpcode hop
    · exact .reservedBits hop hreserved
  | event e => cases h

/-- An instruction that writes the refusal log is a refused one, and leaves its reason and nothing else. -/
theorem exec_refuses {i : Instr} (hdecode : decode x = .ok i) (h : exec i s = .next t)
    (hlog : t.refusals ≠ s.refusals) : ∃ r, IsRefused s x r ∧ t = s.refuse r := by
  obtain ⟨-, -, -, -, -, -, -, -, hwriter, -⟩ := writersOfEachField i s t h
  obtain rfl | ⟨p, c0, c1, rfl⟩ := hwriter hlog
  · obtain ⟨-, rfl⟩ | ⟨hbusy, ht⟩ := execDecode_next h
    · exact absurd rfl hlog
    · exact ⟨_, .decodeBusy hdecode hbusy, ht⟩
  · obtain ⟨-, rfl⟩ | ⟨hnonhex, ht⟩ := execVerify_next h
    · exact absurd rfl hlog
    · exact ⟨_, .verifyNonhex hdecode ((allHex_append_pair ..).trans hnonhex), ht⟩

/-- A step that writes the refusal log takes a refused transaction off the schedule, and leaves its reason and nothing
else. -/
theorem step_refuses (h : step s = .next t) (hlog : t.refusals ≠ s.refusals) :
    ∃ x rest r, s.inputs = x :: rest ∧ IsRefused { s with inputs := rest } x r ∧
      t = { s with inputs := rest, refusals := s.refusals ++ [r] } := by
  obtain ⟨-, rfl⟩ | ⟨x, rest, hinputs, ⟨r, hdecode, rfl⟩ | ⟨i, hdecode, hexec⟩⟩ := step_next h
  · exact absurd rfl hlog
  · exact ⟨x, rest, r, hinputs, isRefused_of_decode_error hdecode, rfl⟩
  · obtain ⟨r, hrefused, rfl⟩ := exec_refuses hdecode hexec hlog
    exact ⟨x, rest, r, hinputs, hrefused, rfl⟩

end

/-- Settles O54: the transaction taken off the schedule was refused. -/
theorem refusalChangesNothingElse : Obligations.RefusalChangesNothingElse := by
  intro s t h hlog
  obtain ⟨x, rest, r, hinputs, -, rfl⟩ := step_refuses h hlog
  exact ⟨r, by rw [hinputs]; rfl⟩

/-- Settles O55: the reason appended is the one the transaction was refused for. -/
theorem refusalReasonsAsListed : Obligations.RefusalReasonsAsListed := by
  intro s t r h happend
  obtain ⟨x, rest, r', hinputs, hrefused, rfl⟩ := step_refuses h (by simp [happend])
  obtain rfl : r' = r := by simpa using happend
  refine ⟨x, rest, hinputs, ?_⟩
  cases hrefused with
  | illegalOpcode hop => exact .inl ⟨rfl, _, rfl, hop⟩
  | reservedBits hop hreserved => exact .inr (.inl ⟨rfl, _, rfl, hop, hreserved⟩)
  | decodeBusy hdecode hbusy => exact .inr (.inr (.inl ⟨rfl, hdecode, hbusy⟩))
  | verifyNonhex hdecode hnonhex =>
    exact .inr (.inr (.inr ⟨rfl, _, _, _, hdecode, exists_nonhex_of_allHex_eq_false hnonhex⟩))

end Sys2Proof.Machine

/-! ## Reset and hazards: a DECODE issued while a call is in progress (R315) -/

namespace Sys2Proof.Machine

/-- The refusal `DECODE_BUSY` (R120). -/
theorem exec_decode_of_busy {s : State} (h : s.phase ≠ .idle) : exec .decode s = .next (s.refuse .decodeBusy) := by
  simp [exec, execDecode, h]

/-- The start request is pending while the decoder waits for a first byte (R120, R121). -/
theorem State.pendingRequest_of_waitStart {s : State} (h : s.phase = .waitStart) :
    s.pendingRequest = some (.readOne s.cfg.primaryTimeout) := by
  simp [State.pendingRequest, h]

/-- Settles O17: an idle decoder goes to WAIT_START, whose pending request is the start request; a busy one refuses. -/
theorem decodeStartsOneCall : Obligations.DecodeStartsOneCall :=
  ⟨fun _ hidle => ⟨exec_decode_of_idle hidle, State.pendingRequest_of_waitStart rfl⟩,
    fun _ hbusy => exec_decode_of_busy hbusy⟩

end Sys2Proof.Machine

/-! ## Encoding: the written-out words of the test vectors (95_test_vectors.md part 2) -/

namespace Sys2Proof

/-- The refusal `RESERVED_BITS` (R98). -/
theorem decodeCommand_of_reserved {w : CommandWord} (hop : AssignedOpcode (opField w)) (hreserved : ReservedBitSet w) :
    decodeCommand w = .error .reservedBits :=
  (decodeCommand_of_assigned hop).resolve_right fun hok => (exists_decodeCommand_eq_ok_iff hop).mp hok hreserved

/-- Settles O5: each command word satisfies the condition of its row, or that of its refusal; an event presents itself. -/
theorem writtenWordsDecode : Obligations.WrittenWordsDecode := by
  refine ⟨?dv1, ?vv1, ?en1, ?en8, ?rawLeave, ?tv1, ?tv3, ?rf2, ?rf5, ?rf6, rfl, rfl⟩
  case dv1 => exact decodeCommand_eq_decode_iff.mpr (by decide)
  case vv1 => exact decodeCommand_eq_verify_iff.mpr (by decide)
  case en1 => exact decodeCommand_eq_rawEnter_iff.mpr (by decide)
  case en8 => exact decodeCommand_eq_rawEnter_iff.mpr (by decide)
  case rawLeave => exact decodeCommand_eq_rawLeave_iff.mpr (by decide)
  case tv1 => exact decodeCommand_eq_timeAdvance_iff.mpr (by decide)
  case tv3 => exact decodeCommand_eq_timeAdvance_iff.mpr (by decide)
  case rf2 => exact decodeCommand_of_unassigned (by unfold AssignedOpcode; decide)
  case rf5 => exact decodeCommand_of_reserved (.inl rfl) (.inl ⟨.inl rfl, by decide⟩)
  case rf6 => exact decodeCommand_of_unassigned (by unfold AssignedOpcode; decide)

end Sys2Proof
